-- ==== Sys2Proof/Word.lean ====
section
/-! DEFINITION. Words, bytes and the two fixed-size containers of the PX-420 model.

The manual treats these as bits: bytes on a link and in the settings memory, 16-bit character cells (R2), 16-bit
settings words (R163), 20-bit hand words (R70). Everything else it counts or names, so it is a number or a name here. -/

namespace Sys2Proof

/-- One byte of a link frame, a packet or the settings memory (R183, R185, R186). -/
abbrev Byte := BitVec 8

/-- One character cell: a 16-bit character code the store never interprets (R2). -/
abbrev CharCell := BitVec 16

/-- One word of the settings image (R163). -/
abbrev Word16 := BitVec 16

/-- One word of a hand line, 20 bits (R70, R184). The bit that arrives first is bit 19, the parity bit is bit 0
(log entry 18). -/
abbrev HandBits := BitVec 20

/-- Four like things numbered 0 to 3: hand ports, hand source entries, cue timers. -/
structure Four (α : Type) where
  p0 : α
  p1 : α
  p2 : α
  p3 : α
deriving DecidableEq, Repr

/-- The thing numbered `n`. -/
def Four.get {α : Type} (f : Four α) : Fin 4 → α
  | 0 => f.p0
  | 1 => f.p1
  | 2 => f.p2
  | 3 => f.p3

/-- `f` with the thing numbered `n` replaced. -/
def Four.set {α : Type} (f : Four α) (n : Fin 4) (a : α) : Four α :=
  match n with
  | 0 => { f with p0 := a }
  | 1 => { f with p1 := a }
  | 2 => { f with p2 := a }
  | 3 => { f with p3 := a }

/-- Each of the four things changed by `g`. -/
def Four.map {α β : Type} (g : α → β) (f : Four α) : Four β :=
  ⟨g f.p0, g f.p1, g f.p2, g f.p3⟩

/-- The four things in number order. -/
def Four.toList {α : Type} (f : Four α) : List α :=
  [f.p0, f.p1, f.p2, f.p3]

/-- Four copies of one thing. -/
def Four.same {α : Type} (a : α) : Four α :=
  ⟨a, a, a, a⟩

end Sys2Proof
end

