-- ==== Sys2Proof/Config.lean ====
section
/-! DEFINITION. The fixed figures of the PX-420: the sizes and limits the manual gives, each with its rule.
The manual leaves no implementation-defined constant open, so there is no uninterpreted constant here. -/

namespace Sys2Proof.Config

/-- Line slots of the pool (R1). -/
def poolSlots : Nat := 16384
/-- The highest LID (R2, R3). -/
def lidMax : Nat := 16777215
/-- Units of position in one line (R8, R21). -/
def unitsPerLine : Nat := 4096
/-- The greatest magnitude of a speed or demand (R24). -/
def speedMax : Nat := 16384
/-- The greatest number of stories in the rundown (R6). -/
def storiesMax : Nat := 256
/-- The greatest number of lines in a story (R6). -/
def storyLinesMax : Nat := 2048
/-- Slots of an edit page (R120). -/
def pageSlots : Nat := 64
/-- Cells of a line's text (R2). -/
def textCells : Nat := 48
/-- Cells of a slug (R5). -/
def slugCells : Nat := 16
/-- Places of the commit queue (R127). -/
def commitQueueMax : Nat := 4
/-- Places of a receive queue (R172). -/
def receiveQueueMax : Nat := 4
/-- Places of a response queue (R172). -/
def responseQueueMax : Nat := 8
/-- The value at which a 16-bit counter stops (R76, R106, R157, R171). -/
def counterMax : Nat := 65535
/-- The value at which the show clock stops, and the greatest 32-bit show time (R110). -/
def clockMax : Nat := 4294967295
/-- Bad frames in a row that make a port FAULT (R76, R81). -/
def badRunMax : Nat := 8
/-- Ticks without a valid frame that make a port SILENT (R78). -/
def silenceMax : Nat := 5
/-- Field words of the settings image (R163). -/
def fieldWords : Nat := 179
/-- What a byte of the settings memory that nothing has written reads as. DESIGN CHOICE (log entry 2), unsafe: the manual
gives no contents for a memory never written. -/
def blankByte : Byte := 0xFF

end Sys2Proof.Config
end

