-- ==== Sys2Proof/Syntax.lean ====
section
/-! DEFINITION. The commands of the PX-420: one constructor of `Instr` for each row of spec/opcode_table.json, with the
row's operands. The first rows are events (pins, line words, completions, ticks); the rest are the requests a link sends,
each with the link it comes on and the tag of its frame.

Operands that can be wrong on the line (a source number, a mode code, an index) are plain numbers, so that the answers
BAD_REQUEST of R174 can be asked for; `Instr.wellFormed` says which operands the frame formats of R183 can carry. -/

namespace Sys2Proof

/-- A link: its code on the line is console 0, rundown 1 (R183). -/
inductive Link where
  | console
  | rundown
deriving DecidableEq, Repr

/-- A line output (R152). -/
inductive OutputId where
  | a
  | b
deriving DecidableEq, Repr

/-- The levels of the four edge buttons of a hand unit, or which of their latches are pending (R84). -/
structure Edges where
  holdToggle : Bool
  go : Bool
  next : Bool
  prev : Bool
deriving DecidableEq, Repr

/-- The levels of the five buttons of a hand unit (R70). -/
structure Buttons where
  edges : Edges
  claim : Bool
deriving DecidableEq, Repr

/-- The kind of an edit with its parameters (R121). -/
inductive EditParams where
  | linesReplace (story first last : Nat)
  | linesInsert (story : Nat) (after : Option Nat)
  | storyInsert (story : Nat) (after : Option Nat) (slug : Option (List CharCell)) (target : Option Nat)
  | storyDrop (story : Nat)
  | storyMove (story : Nat) (after : Option Nat)
deriving DecidableEq, Repr

/-- One entry of the list a DGLD carries; the port may lie outside 0..3 (R168). -/
structure PlayerArg where
  port : Nat
  deflection : Nat
  buttons : Buttons
  duration : Nat
deriving DecidableEq, Repr

/-- The mnemonics of the part's requests (R173, R175, R179 to R181). -/
inductive Mnem where
  | rdln | rdrn | clrs | mspd | frze | thaw | rels | jump | lock | free | srcs | thrs | parm | pget
  | crvw | crvr | cntr | clkc | cuea | cued | amod | eopn | elin | eabn | ecmt | qcan | qfrc | slck
  | tgts | rfsl | stat | mode | save | load | dgld | dgrn | nten
deriving DecidableEq, Repr

/-- A request with the fields its frame carries, in the order its owning rule lists them (R183). -/
inductive Request where
  | rdln (lid count : Nat)
  | rdrn (page : Nat)
  | clrs
  | mspd (speed : Int)
  | frze
  | thaw
  | rels
  | jump (target param : Nat)
  | lock (source : Nat)
  | free
  | srcs (source : Nat) (enable : Bool) (priority : Nat)
  | thrs (value : Nat)
  | parm (name : Nat) (index : Option Nat) (value : Nat)
  | pget (name : Nat) (index : Option Nat)
  | crvw (port first : Nat) (values : List Nat)
  | crvr (port : Nat)
  | cntr (port : Nat)
  | clkc (action : Nat) (value : Option Nat)
  | cuea (slot compare : Nat)
  | cued (slot : Nat)
  | amod (mode : Nat) (constant : Option Nat)
  | eopn (edit : Option EditParams) (n : Nat)
  | elin (slot style mark : Nat) (cue : Option Nat) (text : List CharCell)
  | eabn
  | ecmt
  | qcan (entryLink entryTag : Nat)
  | qfrc (entryLink entryTag : Nat)
  | slck (entry low high : Nat) (console rundown sticky inUse : Bool)
  | tgts (story : Nat) (target : Option Nat)
  | rfsl
  | stat (selector : Nat) (index : Option Nat)
  | mode (mode : Nat)
  | save
  | load
  | dgld (first : Nat) (entries : List PlayerArg) (length : Nat)
  | dgrn (action : Nat) (loop : Option Bool)
  | nten (pairs : List (Nat × Bool))
deriving DecidableEq, Repr

/-- The mnemonic under which a request is sent. -/
def Request.mnem : Request → Mnem
  | .rdln .. => .rdln
  | .rdrn .. => .rdrn
  | .clrs => .clrs
  | .mspd .. => .mspd
  | .frze => .frze
  | .thaw => .thaw
  | .rels => .rels
  | .jump .. => .jump
  | .lock .. => .lock
  | .free => .free
  | .srcs .. => .srcs
  | .thrs .. => .thrs
  | .parm .. => .parm
  | .pget .. => .pget
  | .crvw .. => .crvw
  | .crvr .. => .crvr
  | .cntr .. => .cntr
  | .clkc .. => .clkc
  | .cuea .. => .cuea
  | .cued .. => .cued
  | .amod .. => .amod
  | .eopn .. => .eopn
  | .elin .. => .elin
  | .eabn => .eabn
  | .ecmt => .ecmt
  | .qcan .. => .qcan
  | .qfrc .. => .qfrc
  | .slck .. => .slck
  | .tgts .. => .tgts
  | .rfsl => .rfsl
  | .stat .. => .stat
  | .mode .. => .mode
  | .save => .save
  | .load => .load
  | .dgld .. => .dgld
  | .dgrn .. => .dgrn
  | .nten .. => .nten

/-- The commands, one constructor for each row of spec/opcode_table.json, in the table's order.

An `instant` is a point of time in units of 1/5,994,000 s (log entry 3); a later command's instant that lies before the
time already reached is taken as the time reached. -/
inductive Instr where
  /-- RESET_LINE (R165): `written` words of a save in flight had reached the settings memory, the first of them in any case
(R166, log entry 10). -/
  | resetLine (written : Nat)
  /-- RESET_RELEASE (R165, R105). -/
  | resetRelease (instant : Nat)
  /-- LOAD_COMPLETION (R164): `image`, when given, is what the settings memory holds instead of what the part wrote
  (log entry 10). -/
  | loadCompletion (instant : Nat) (image : Option (List Word16))
  /-- SETTINGS_LOAD_TIMEOUT (R164). -/
  | settingsLoadTimeout (instant : Nat)
  /-- SAVE_COMPLETION (R166): `readBack`, when given, is the field words read back instead of those written (log
  entry 10). -/
  | saveCompletion (readBack : Option (List Word16))
  /-- SAVE_TIMEOUT (R166): `written` words had reached the settings memory (log entry 10). -/
  | saveTimeout (written : Nat)
  /-- REFERENCE_EDGE (R106). -/
  | referenceEdge (instant : Nat)
  /-- INTERNAL_TICK (R105). -/
  | internalTick
  /-- REFERENCE_LOSS (R107). -/
  | referenceLoss
  /-- SCROLL_STEP (R26). -/
  | scrollStep
  /-- ARBITER_TICK (R60). -/
  | arbiterTick
  /-- HOLD_OVER_EXPIRY (R60). -/
  | holdOverExpiry
  /-- PORT_TICK (R78). -/
  | portTick (port : Fin 4)
  /-- PORT_SILENCE_EXPIRY (R78). -/
  | portSilenceExpiry (port : Fin 4)
  /-- HAND_WORD (R70). -/
  | handWord (port : Fin 4) (word : HandBits)
  /-- SHOW_TIME_TICK (R110). -/
  | showTimeTick
  /-- CUE_TIMER (R112). -/
  | cueTimer (slot : Fin 4)
  /-- PLAYER_TICK (R170). -/
  | playerTick
  /-- COPY_COMPLETION (R128). -/
  | copyCompletion (link : Link)
  /-- QUEUE_PASS (R131). -/
  | queuePass
  /-- STAGING_COMPLETION (R150). -/
  | stagingCompletion
  /-- OUTPUT_TICK (R153). -/
  | outputTick (out : OutputId)
  /-- FRAME_SYNC_REQUEST (R153). -/
  | frameSyncRequest (out : OutputId)
  /-- PACKET_SEND_COMPLETION (R155). -/
  | packetSendCompletion (out : OutputId)
  /-- LINK_FRAME_RECEIVED (R171): the bytes that arrive, up to the last byte of a frame. -/
  | linkFrameReceived (link : Link) (bytes : List Byte)
  /-- INTER_BYTE_TIMEOUT (R171). -/
  | interByteTimeout (link : Link)
  /-- REQUEST_EXECUTION (R173). -/
  | requestExecution (link : Link) (instant : Nat)
  /-- LINK_SEND_START (R177). -/
  | linkSendStart (link : Link)
  /-- LINK_SEND_COMPLETION (R177). -/
  | linkSendCompletion (link : Link)
  /-- RDLN (R17). -/
  | rdln (link : Link) (tag : Byte) (lid count : Nat)
  /-- RDLN_COMPLETION (R17). -/
  | rdlnCompletion (link : Link)
  /-- RDRN (R18). -/
  | rdrn (link : Link) (tag : Byte) (page : Nat)
  /-- RDRN_COMPLETION (R18). -/
  | rdrnCompletion (link : Link)
  /-- CLRS (R181). -/
  | clrs (link : Link) (tag : Byte)
  /-- MSPD (R36). -/
  | mspd (link : Link) (tag : Byte) (speed : Int)
  /-- FRZE (R37). -/
  | frze (link : Link) (tag : Byte)
  /-- THAW (R38). -/
  | thaw (link : Link) (tag : Byte)
  /-- RELS (R39). -/
  | rels (link : Link) (tag : Byte)
  /-- JUMP (R40). -/
  | jump (link : Link) (tag : Byte) (target param : Nat)
  /-- LOCK (R64). -/
  | lock (link : Link) (tag : Byte) (source : Nat)
  /-- FREE (R65). -/
  | free (link : Link) (tag : Byte)
  /-- SRCS (R66). -/
  | srcs (link : Link) (tag : Byte) (source : Nat) (enable : Bool) (priority : Nat)
  /-- THRS (R67). -/
  | thrs (link : Link) (tag : Byte) (value : Nat)
  /-- PARM (R179). -/
  | parm (link : Link) (tag : Byte) (name : Nat) (index : Option Nat) (value instant : Nat)
  /-- PGET (R179). -/
  | pget (link : Link) (tag : Byte) (name : Nat) (index : Option Nat)
  /-- CRVW (R100). -/
  | crvw (link : Link) (tag : Byte) (port first : Nat) (values : List Nat)
  /-- CRVR (R101). -/
  | crvr (link : Link) (tag : Byte) (port : Nat)
  /-- CNTR (R102). -/
  | cntr (link : Link) (tag : Byte) (port : Nat)
  /-- CLKC (R111). -/
  | clkc (link : Link) (tag : Byte) (action : Nat) (value : Option Nat)
  /-- CUEA (R113). -/
  | cuea (link : Link) (tag : Byte) (slot compare : Nat)
  /-- CUED (R113). -/
  | cued (link : Link) (tag : Byte) (slot : Nat)
  /-- AMOD (R115). -/
  | amod (link : Link) (tag : Byte) (mode : Nat) (constant : Option Nat)
  /-- EOPN (R121): no `edit` stands for a kind that is unknown or lacks a parameter. -/
  | eopn (link : Link) (tag : Byte) (edit : Option EditParams) (n : Nat)
  /-- ELIN (R122). -/
  | elin (link : Link) (tag : Byte) (slot style mark : Nat) (cue : Option Nat) (text : List CharCell)
  /-- EABN (R123). -/
  | eabn (link : Link) (tag : Byte)
  /-- ECMT (R124). -/
  | ecmt (link : Link) (tag : Byte)
  /-- QCAN (R134). -/
  | qcan (link : Link) (tag : Byte) (entryLink entryTag : Nat)
  /-- QFRC (R135). -/
  | qfrc (link : Link) (tag : Byte) (entryLink entryTag : Nat)
  /-- SLCK (R138). -/
  | slck (link : Link) (tag : Byte) (entry low high : Nat) (console rundown sticky inUse : Bool)
  /-- TGTS (R139). -/
  | tgts (link : Link) (tag : Byte) (story : Nat) (target : Option Nat)
  /-- RFSL (R140). -/
  | rfsl (link : Link) (tag : Byte)
  /-- STAT (R180). -/
  | stat (link : Link) (tag : Byte) (selector : Nat) (index : Option Nat)
  /-- MODE (R161). -/
  | mode (link : Link) (tag : Byte) (mode : Nat)
  /-- SAVE (R166). -/
  | save (link : Link) (tag : Byte)
  /-- LOAD (R167). -/
  | load (link : Link) (tag : Byte)
  /-- DGLD (R168). -/
  | dgld (link : Link) (tag : Byte) (first : Nat) (entries : List PlayerArg) (length : Nat)
  /-- DGRN (R169). -/
  | dgrn (link : Link) (tag : Byte) (action : Nat) (loop : Option Bool)
  /-- NTEN (R178). -/
  | nten (link : Link) (tag : Byte) (pairs : List (Nat × Bool))
deriving DecidableEq, Repr

/-- The request a command carries, with its link and tag; an event carries none. -/
def Instr.request? : Instr → Option (Link × Byte × Request)
  | .rdln l t lid c => some (l, t, .rdln lid c)
  | .rdrn l t p => some (l, t, .rdrn p)
  | .clrs l t => some (l, t, .clrs)
  | .mspd l t v => some (l, t, .mspd v)
  | .frze l t => some (l, t, .frze)
  | .thaw l t => some (l, t, .thaw)
  | .rels l t => some (l, t, .rels)
  | .jump l t k p => some (l, t, .jump k p)
  | .lock l t n => some (l, t, .lock n)
  | .free l t => some (l, t, .free)
  | .srcs l t n e p => some (l, t, .srcs n e p)
  | .thrs l t v => some (l, t, .thrs v)
  | .parm l t n i v _ => some (l, t, .parm n i v)
  | .pget l t n i => some (l, t, .pget n i)
  | .crvw l t p f vs => some (l, t, .crvw p f vs)
  | .crvr l t p => some (l, t, .crvr p)
  | .cntr l t p => some (l, t, .cntr p)
  | .clkc l t a v => some (l, t, .clkc a v)
  | .cuea l t k c => some (l, t, .cuea k c)
  | .cued l t k => some (l, t, .cued k)
  | .amod l t m c => some (l, t, .amod m c)
  | .eopn l t e n => some (l, t, .eopn e n)
  | .elin l t k st m c tx => some (l, t, .elin k st m c tx)
  | .eabn l t => some (l, t, .eabn)
  | .ecmt l t => some (l, t, .ecmt)
  | .qcan l t el et => some (l, t, .qcan el et)
  | .qfrc l t el et => some (l, t, .qfrc el et)
  | .slck l t e lo hi c r st u => some (l, t, .slck e lo hi c r st u)
  | .tgts l t n v => some (l, t, .tgts n v)
  | .rfsl l t => some (l, t, .rfsl)
  | .stat l t k i => some (l, t, .stat k i)
  | .mode l t m => some (l, t, .mode m)
  | .save l t => some (l, t, .save)
  | .load l t => some (l, t, .load)
  | .dgld l t f es n => some (l, t, .dgld f es n)
  | .dgrn l t a lo => some (l, t, .dgrn a lo)
  | .nten l t ps => some (l, t, .nten ps)
  | _ => none

end Sys2Proof
end

