-- ==== Sys2Proof/WellFormed.lean ====
section
/-! DEFINITION. Which operands a command can carry: those the frame formats of R183, R184 and R186 have room for.

A well-formed request may still be answered BAD_REQUEST, NOT_PERMITTED, BUSY or REFUSED: that is its meaning, not its form. -/

namespace Sys2Proof

/-- A field of one byte (R183). -/
def fits8 (n : Nat) : Bool := n < 256
/-- A field of two bytes (R183). -/
def fits16 (n : Nat) : Bool := n < 65536
/-- A field of three bytes: a LID, the parameter of a jump target (R183). -/
def fits24 (n : Nat) : Bool := n < 16777216
/-- A field of four bytes (R183). -/
def fits32 (n : Nat) : Bool := n < 4294967296
/-- A signed field of two bytes in two's complement (R183). -/
def fitsSigned16 (v : Int) : Bool := -32768 ≤ v && v ≤ 32767
/-- A list whose count byte can hold its length (R183). -/
def fitsCount {α : Type} (l : List α) : Bool := l.length < 256

/-- A field that may be absent fits its width where it is present (R183). -/
def optFits (fits : Nat → Bool) : Option Nat → Bool
  | none => true
  | some n => fits n

/-- The parameters of an edit fit their fields (R121, R183). -/
def EditParams.wellFormed : EditParams → Bool
  | .linesReplace s f l => fits16 s && fits24 f && fits24 l
  | .linesInsert s a => fits16 s && optFits fits24 a
  | .storyInsert s a slug t =>
    fits16 s && optFits fits16 a && (match slug with | none => true | some c => fitsCount c) && optFits fits32 t
  | .storyDrop s => fits16 s
  | .storyMove s a => fits16 s && optFits fits16 a

/-- One entry of a DGLD's list fits its fields (R168, R183). -/
def PlayerArg.wellFormed (e : PlayerArg) : Bool :=
  fits8 e.port && fits16 e.deflection && fits16 e.duration

/-- The fields of a request fit the widths R183 gives them. -/
def Request.wellFormed : Request → Bool
  | .rdln lid c => fits24 lid && fits8 c
  | .rdrn p => fits8 p
  | .clrs => true
  | .mspd v => fitsSigned16 v
  | .frze => true
  | .thaw => true
  | .rels => true
  | .jump k p => fits8 k && fits24 p
  | .lock n => fits8 n
  | .free => true
  | .srcs n _ p => fits8 n && fits8 p
  | .thrs v => fits8 v
  | .parm n i v => fits8 n && optFits fits8 i && fits32 v
  | .pget n i => fits8 n && optFits fits8 i
  | .crvw p f vs => fits8 p && fits8 f && fitsCount vs && vs.all fits16
  | .crvr p => fits8 p
  | .cntr p => fits8 p
  | .clkc a v => fits8 a && optFits fits32 v
  | .cuea k c => fits8 k && fits32 c
  | .cued k => fits8 k
  | .amod m c => fits8 m && optFits fits16 c
  | .eopn e n => (match e with | none => false | some p => p.wellFormed) && fits16 n
  | .elin k st m c tx => fits8 k && fits8 st && fits8 m && optFits fits8 c && fitsCount tx
  | .eabn => true
  | .ecmt => true
  | .qcan l t => fits8 l && fits8 t
  | .qfrc l t => fits8 l && fits8 t
  | .slck e lo hi .. => fits8 e && fits16 lo && fits16 hi
  | .tgts n v => fits16 n && optFits fits32 v
  | .rfsl => true
  | .stat k i => fits8 k && optFits fits8 i
  | .mode m => fits8 m
  | .save => true
  | .load => true
  | .dgld f es n => fits8 f && es.length ≤ 169 && es.all (·.wellFormed) && fits16 n
  | .dgrn a _ => fits8 a
  | .nten ps => fitsCount ps && ps.all (fun p => fits8 p.1)

/-- A settings image given from outside is 180 words (R163). -/
def imageFits : Option (List Word16) → Bool
  | none => true
  | some ws => ws.length = 180

/-- The field words read back from outside are 179 words (R166). -/
def readBackFits : Option (List Word16) → Bool
  | none => true
  | some ws => ws.length = 179

/-- A command whose operands its line, port or frame can carry. -/
def Instr.wellFormed (i : Instr) : Bool :=
  match i.request? with
  | some (_, _, r) => r.wellFormed
  | none =>
    match i with
    | .loadCompletion _ image => imageFits image
    | .saveCompletion rb => readBackFits rb
    | .linkFrameReceived _ bytes => bytes ≠ []
    | .resetLine n => n ≤ 181
    | .saveTimeout n => n ≤ 180
    | _ => true

end Sys2Proof
end

