-- ==== Sys2Proof/Decode.lean ====
section
/-! DEFINITION. The command a word of spec/opcode_table.json spells.

The table of this block gives its rows no bits (no row has "fixed" or "fields"): a command is an event or a request, not a
word. So no word spells a command. The formats that do cross the part's boundary (link frames, hand words, packets, the
settings image) are read and written in Machine/Frames.lean, Machine/Operands.lean, Machine/HandPorts.lean,
Machine/Outputs.lean and Machine/Settings.lean. -/

namespace Sys2Proof

/-- The command spelled by an `nbits`-bit word `w` of the table: none, since the table gives no row any bits. -/
def decodeTableWord (_nbits _w : Nat) : Option Instr :=
  none

end Sys2Proof
end

