-- ==== Sys2Proof/Machine/State.lean ====
section
/-! DEFINITION. The state of the PX-420, block by block (section 1.2 of spec/00_scope.md), and its reset values.

One structure holds each block's state; `State` gathers them, with the queue of commands that wait. A value the manual
names twice is stored once: a port's enable is its not being DISABLED (R80), the stager is STAGING exactly when its buffer
holds a frame (R147), an output is SENDING exactly when a packet is in flight (R155), a link interface is executing
exactly when a read is in flight (R173), an outgoing line is sending exactly when it holds a frame (R177). -/

namespace Sys2Proof.Machine

/-! ### Script store (R1 to R20) -/

/-- The presentation class of a line (R2), codes as in R185. -/
inductive Style where
  | normal
  | emphasis
  | alert
  | reverse
deriving DecidableEq, Repr

/-- The mark of a line; a CUE carries its cue number (R2). -/
inductive Mark where
  | none
  | hold
  | cue (number : Nat)
deriving DecidableEq, Repr

/-- The content fields of a line: style, mark with cue number, and text of 0..48 cells (R2). -/
structure LineContent where
  style : Style
  mark : Mark
  text : List CharCell
deriving DecidableEq, Repr

/-- A line slot that is not free (R1, R2). The slot is in use when `story` names the story that lists the line, and
reserved while it is absent; `content` is absent until the copy of its page has completed. -/
structure PoolLine where
  lid : Nat
  story : Option Nat
  content : Option LineContent
deriving DecidableEq, Repr

/-- A story record (R5). -/
structure Story where
  number : Nat
  slug : Option (List CharCell)
  target : Option Nat
  lines : List Nat
  overrun : Bool
deriving DecidableEq, Repr

/-- The script store, SCS: the slots that are not free, in order of LID, the rundown, and the LID counter (R1, R3, R6). -/
structure Store where
  pool : List PoolLine
  rundown : List Story
  nextLid : Nat
deriving DecidableEq, Repr

/-! ### Edit engine (R120 to R143) -/

/-- An edit page: 64 page slots, each unwritten or written (R120). -/
abbrev Page := List (Option LineContent)

/-- The edit slot of one link (R120). -/
inductive EditSlot where
  | closed
  | opened (edit : EditParams) (n : Nat) (page : Page)
  | copying (edit : EditParams) (n : Nat) (page : Page)
deriving DecidableEq, Repr

/-- The state of a queue entry (R127). -/
inductive EntryState where
  | copying
  | waiting
  | deferred
deriving DecidableEq, Repr

/-- An entry of the commit queue (R127). -/
structure Entry where
  link : Link
  tag : Byte
  edit : EditParams
  lids : List Nat
  state : EntryState
  cancelMarked : Bool
  deferredSent : Bool
deriving DecidableEq, Repr

/-- A story-lock entry (R137). -/
structure LockEntry where
  low : Nat
  high : Nat
  console : Bool
  rundown : Bool
  sticky : Bool
  inUse : Bool
deriving DecidableEq, Repr

/-- The causes of a refusal, in the order of their codes 1 to 21 (R183). -/
inductive Cause where
  | noEdit | incomplete | queueFull | duplicateTag | unknownStory | storyExists | badSpan
  | locked | storyFull | rundownFull | poolFull | idsExhausted | cancelled | unknownEntry
  | order | sticky | unknownLine | unknownTarget | noSample | badTransition | emptyTable
deriving DecidableEq, Repr

/-- The refusal record when it is not empty (R140). -/
structure RefusalRecord where
  link : Link
  mnem : Mnem
  cause : Cause
  detail : Nat
deriving DecidableEq, Repr

/-- The edit engine, EDE. `passesDue` counts the passes that the events of R132 have started and that are still to be
made as events of their own. -/
structure EditEngine where
  consoleSlot : EditSlot
  rundownSlot : EditSlot
  queue : List Entry
  locks : List LockEntry
  refusal : Option RefusalRecord
  guardAbove : Nat
  guardBelow : Nat
  passesDue : Nat
deriving DecidableEq, Repr

/-! ### Hand ports and demand shaper (R70 to R103) -/

/-- The kind of a hand unit (R70). -/
inductive UnitKind where
  | wheel
  | pedal
  | stick
deriving DecidableEq, Repr

/-- The state of a hand port (section 4.4). -/
inductive PortState where
  | disabled
  | absent
  | live
  | silent
  | fault
deriving DecidableEq, Repr

/-- The frame assembler of a hand port, with the words of the frame it assembles (R71). `open1` has taken word 1,
`open2` words 1 and 2. -/
inductive Assembler where
  | idle
  | open1 (kind seq : Nat)
  | open2 (kind seq deflection : Nat)
  | hunt
deriving DecidableEq, Repr

/-- The seven counters of a hand port (R76). -/
structure PortCounters where
  valid : Nat
  parity : Nat
  framing : Nat
  length : Nat
  kind : Nat
  aborted : Nat
  missed : Nat
deriving DecidableEq, Repr

/-- The sample latch of a hand port (R83). -/
structure Latch where
  deflection : Option Nat
  demand : Int
  kind : Option UnitKind
  claim : Bool
deriving DecidableEq, Repr

/-- A hand port receiver, HPR0 to HPR3 (R70 to R89). `buttons` says which button latches are pending, `record` is the
button record, `playerRecord` and `driven` belong to the diagnostic feed (R86). -/
structure HandPort where
  state : PortState
  assembler : Assembler
  counters : PortCounters
  badRun : Nat
  silence : Nat
  expected : Option Nat
  lastKind : Option UnitKind
  latch : Latch
  buttons : Edges
  record : Option Edges
  playerRecord : Edges
  driven : Bool
deriving DecidableEq, Repr

/-- The shaping parameters of one port, held by the demand shaper DSH (R90). -/
structure Shaping where
  centre : Nat
  deadband : Nat
  reverse : Bool
  curve : List Nat
deriving DecidableEq, Repr

/-! ### Authority arbiter (R51 to R69) -/

/-- The six sources, numbered 0 to 5 in this order (R51). -/
inductive Source where
  | console
  | hand (n : Fin 4)
  | auto
deriving DecidableEq, Repr

/-- A source entry (R51). -/
structure SourceEntry where
  enable : Bool
  priority : Nat
deriving DecidableEq, Repr

/-- The authority arbiter, AUA. `inHoldOver` says that hold-over is in progress (R59): a hold-over value of 0 makes it
begin with the count at 0, so the count alone does not tell. -/
structure Arbiter where
  console : SourceEntry
  hand : Four SourceEntry
  auto : SourceEntry
  threshold : Nat
  lock : Option Source
  holder : Option Source
  inHoldOver : Bool
  count : Nat
  holdOverValue : Nat
deriving DecidableEq, Repr

/-! ### Scroll engine (R21 to R50) -/

/-- The scroll state (R25). -/
inductive ScrollState where
  | running
  | frozen
  | held
deriving DecidableEq, Repr

/-- The target of a jump (R40). -/
inductive JumpTarget where
  | top
  | story (number : Nat)
  | next
  | prev
  | line (lid : Nat)
deriving DecidableEq, Repr

/-- The scroll engine, SCE (R21 to R50). -/
structure ScrollEngine where
  anchor : Option Nat
  fraction : Nat
  velocity : Int
  state : ScrollState
  pendingJump : Option JumpTarget
  manualSpeed : Int
  currentStory : Option Nat
  accel : Nat
  decel : Nat
deriving DecidableEq, Repr

/-! ### Timebase and pace (R104 to R119) -/

/-- The state of the timebase (R104). -/
inductive RefState where
  | free
  | locked
  | lost
deriving DecidableEq, Repr

/-- The nominal rate: 50, 59.94 or 60 frames per second (R104). -/
inductive Rate where
  | r50
  | r5994
  | r60
deriving DecidableEq, Repr

/-- The auto mode (R115). -/
inductive AutoMode where
  | off
  | constant
  | pace
deriving DecidableEq, Repr

/-- A cue timer (R112). -/
structure CueTimer where
  compare : Nat
  armed : Bool
deriving DecidableEq, Repr

/-- The timebase and pace block, TBP (R104 to R119). `lastTick` is the instant of the last tick; `now` is the latest
instant any command has brought (the model's own). -/
structure Timebase where
  refSelect : Bool
  rate : Rate
  state : RefState
  lastTick : Nat
  now : Nat
  glitches : Nat
  clock : Nat
  running : Bool
  timers : Four CueTimer
  autoMode : AutoMode
  constant : Nat
  paceMin : Nat
  paceMax : Nat
deriving DecidableEq, Repr

/-- Ticks delivered to each block and not yet taken by it (R104); each block takes its ticks in events of its own. -/
structure TickDue where
  scroll : Nat
  arbiter : Nat
  ports : Four Nat
  showTime : Nat
  player : Nat
  outA : Nat
  outB : Nat
deriving DecidableEq, Repr

/-! ### Window stager and line outputs (R144 to R159) -/

/-- A row of a staged frame: blank, or a copy of a line (R146). -/
inductive Row where
  | blank
  | line (lid story : Nat) (style : Style) (mark : Mark) (text : List CharCell)
deriving DecidableEq, Repr

/-- What a staging builds from its snapshot: a staged frame but for its sequence (R146, R149). -/
structure Frame where
  fraction : Nat
  eyeRow : Nat
  holder : Option Source
  scroll : ScrollState
  rows : List Row
deriving DecidableEq, Repr

/-- A finished staged frame (R146). -/
structure StagedFrame where
  sequence : Nat
  frame : Frame
deriving DecidableEq, Repr

/-- The window stager, WST (R144 to R151). `buffer` is the staging buffer: it holds a frame exactly in STAGING. -/
structure Stager where
  rows : Nat
  eyeRow : Nat
  buffer : Option Frame
  restage : Bool
  latest : Option StagedFrame
  sequence : Nat
deriving DecidableEq, Repr

/-- The kind of a frame packet (R154). -/
inductive PacketKind where
  | new
  | static
  | underrun
deriving DecidableEq, Repr

/-- A frame packet in flight, fixed at its start (R155). `syncMark` says that the output drove a frame-sync mark for it. -/
structure Packet where
  counter : Nat
  kind : PacketKind
  frame : Frame
  syncMark : Bool
deriving DecidableEq, Repr

/-- The framing of a line output (R152). -/
inductive Framing where
  | master
  | slave
deriving DecidableEq, Repr

/-- The configuration of a line output (R152). -/
structure OutputConfig where
  enable : Bool
  framing : Framing
  mirror : Bool
deriving DecidableEq, Repr

/-- A line output, LOA or LOB (R152 to R159). `sending` holds the packet in flight exactly in SENDING. -/
structure Output where
  config : OutputConfig
  sending : Option Packet
  lastSent : Option Nat
  packetCounter : Nat
  underrun : Nat
  late : Nat
  collision : Nat
deriving DecidableEq, Repr

/-! ### Mode and settings controller (R160 to R170) -/

/-- The operating mode (R160). -/
inductive Mode where
  | loading
  | setup
  | rehearsal
  | onAir
  | diagnostic
deriving DecidableEq, Repr

/-- The settings image state (R163). -/
inductive ImageState where
  | unknown
  | valid
  | invalid
deriving DecidableEq, Repr

/-- The store operation (R163). -/
inductive StoreOp where
  | idle
  | load
  | save
deriving DecidableEq, Repr

/-- An entry of the diagnostic player's table (R168). -/
structure PlayerEntry where
  port : Fin 4
  deflection : Nat
  buttons : Buttons
  duration : Nat
deriving DecidableEq, Repr

/-- The diagnostic player (R168, R169). A cursor that is `none` is finished. -/
structure Player where
  table : List PlayerEntry
  length : Nat
  running : Bool
  loop : Bool
  cursor : Option Nat
  remaining : Nat
deriving DecidableEq, Repr

/-- The mode and settings controller, MSC. `snapshot` is the 179 field words a SAVE in flight took at its acceptance
(R166); `resetLine` says that the reset line is asserted. -/
structure Controller where
  mode : Mode
  image : ImageState
  storeOp : StoreOp
  snapshot : List Word16
  player : Player
  resetLine : Bool
deriving DecidableEq, Repr

/-! ### Link interfaces (R171 to R182) -/

/-- The notice kinds, in the order of their numbers 1 to 14 (R176). -/
inductive NoticeKind where
  | authorityChanged | heldAtMark | cueLine | storyAtEye | commitDone | commitDeferred | commitRefused
  | portState | referenceState | outputUnderrun | cueTimer | backtimeOver | jumpDiscarded | settingsState
deriving DecidableEq, Repr

/-- The detail of SETTINGS_STATE (R164, R166), codes 1 to 3 (R183). -/
inductive SettingsOutcome where
  | defaulted
  | saved
  | saveFailed
deriving DecidableEq, Repr

/-- The detail of a notice (R183): a single value, or one of the laid-out details. -/
inductive NoticeDetail where
  | value (n : Nat)
  | holder (h : Option Source)
  | commit (link : Link) (tag : Byte) (cause : Option Cause)
  | port (port : Fin 4) (state : PortState)
  | reference (state : RefState)
  | output (out : OutputId)
  | jump (target : JumpTarget)
  | settings (outcome : SettingsOutcome)
deriving DecidableEq, Repr

/-- An entry of a notice table (R176). -/
structure NoticeEntry where
  kind : NoticeKind
  enabled : Bool
  pending : Bool
  count : Nat
  detail : Option NoticeDetail
deriving DecidableEq, Repr

/-- The status of a response, with the data of an OK and the cause and detail of a REFUSED (R174). -/
inductive Status where
  | ok (data : List Byte)
  | busy
  | notPermitted
  | badRequest
  | refused (cause : Cause) (detail : Nat)
deriving DecidableEq, Repr

/-- A response: the request's tag and mnemonic, and a status (R174). -/
structure Response where
  tag : Byte
  mnem : List Byte
  status : Status
deriving DecidableEq, Repr

/-- A request frame that passed the receiver's checks (R171). -/
structure RequestFrame where
  tag : Byte
  mnem : List Byte
  payload : List Byte
deriving DecidableEq, Repr

/-- The kind of a link frame (R183). -/
inductive FrameKind where
  | request
  | response
  | notice
deriving DecidableEq, Repr

/-- A frame on an outgoing line, fixed at its send start (R177). -/
structure LinkFrame where
  kind : FrameKind
  tag : Byte
  mnem : List Byte
  payload : List Byte
deriving DecidableEq, Repr

/-- The receiver of a link interface: hunting for a start marker, or assembling the bytes that follow one (R171). -/
inductive Receiver where
  | hunting
  | assembling (bytes : List Byte)
deriving DecidableEq, Repr

/-- Which of the two reads that take time is in flight (R17, R18). -/
inductive ReadKind where
  | rdln
  | rdrn
deriving DecidableEq, Repr

/-- A read in flight, with the content captured at its start as its response will carry it (R17, R18). -/
structure ReadInFlight where
  kind : ReadKind
  tag : Byte
  data : List Byte
deriving DecidableEq, Repr

/-- A link interface, CLI or RLI (R171 to R182). -/
structure LinkIface where
  receiver : Receiver
  receiveQueue : List RequestFrame
  reading : Option ReadInFlight
  responseQueue : List Response
  line : Option LinkFrame
  notices : List NoticeEntry
  errors : Nat
deriving DecidableEq, Repr

/-! ### The whole part -/

/-- The state of the PX-420: the state of its blocks, the settings memory on its settings-store port, the ticks delivered
and not yet taken, and the commands that wait, first in, first out. -/
structure State where
  msc : Controller
  scs : Store
  ede : EditEngine
  ports : Four HandPort
  dsh : Four Shaping
  aua : Arbiter
  sce : ScrollEngine
  tbp : Timebase
  wst : Stager
  loa : Output
  lob : Output
  cli : LinkIface
  rli : LinkIface
  due : TickDue
  mem : List Host.Cell
  pending : List Instr
deriving DecidableEq, Repr

/-- The reasons a step stops with a fault. The manual names no condition in which the part stops, so no command of this
model faults: this type has no constructor that a meaning uses. -/
inductive Fault where
  /-- Raised by no meaning; safe (a fault never taken hides no behaviour). -/
  | neverRaised
deriving DecidableEq, Repr

/-- The reasons a step is refused. -/
inductive Refusal where
  /-- Raised by `exec` for a row of the table that has no meaning yet; safe, since nothing can be proved of what the row
  does. No arm uses it: every row has its meaning. -/
  | notModelled (mnemonic : String)
deriving DecidableEq, Repr

/-! ### Reset values -/

/-- All four edge buttons released, or no button latch pending. -/
def Edges.none : Edges := ⟨false, false, false, false⟩

/-- All five buttons released. -/
def Buttons.released : Buttons := ⟨Edges.none, false⟩

/-- The store after the reset line or CLEAR SHOW (R19, R20). -/
def Store.empty : Store := { pool := [], rundown := [], nextLid := 1 }

/-- A story-lock entry after the reset line (R138). -/
def LockEntry.reset : LockEntry :=
  { low := 1, high := 1, console := true, rundown := true, sticky := false, inUse := false }

/-- The edit engine after the reset line (R143). -/
def EditEngine.reset : EditEngine :=
  { consoleSlot := .closed, rundownSlot := .closed, queue := [], locks := List.replicate 8 LockEntry.reset,
    refusal := .none, guardAbove := 2, guardBelow := 12, passesDue := 0 }

/-- The sample latch after the reset line (R83). -/
def Latch.reset : Latch := { deflection := .none, demand := 0, kind := .none, claim := false }

/-- A hand port after the reset line (R89). -/
def HandPort.reset : HandPort :=
  { state := .absent, assembler := .hunt, counters := ⟨0, 0, 0, 0, 0, 0, 0⟩, badRun := 0, silence := 0,
    expected := .none, lastKind := .none, latch := Latch.reset, buttons := Edges.none, record := .none,
    playerRecord := Edges.none, driven := false }

/-- The default shaping parameters: centre 2048, dead-band 32, not reversed, P[k] = 64 k (R90). -/
def Shaping.reset : Shaping :=
  { centre := 2048, deadband := 32, reverse := false, curve := (List.range 33).map (64 * ·) }

/-- The arbiter after the reset line (R51, R52, R69). -/
def Arbiter.reset : Arbiter :=
  { console := ⟨true, 12⟩, hand := Four.same ⟨true, 8⟩, auto := ⟨true, 4⟩, threshold := 0, lock := .none,
    holder := .none, inHoldOver := false, count := 0, holdOverValue := 25 }

/-- The scroll engine after the reset line (R35, R50). -/
def ScrollEngine.reset : ScrollEngine :=
  { anchor := .none, fraction := 0, velocity := 0, state := .running, pendingJump := .none, manualSpeed := 0,
    currentStory := .none, accel := 48, decel := 96 }

/-- The timebase and pace block after the reset line, at the instant `now` (R116, R119). The instant of the last tick
is given no reset value by the manual: it is `now` until the release sets it (log entry 3). -/
def Timebase.reset (now : Nat) : Timebase :=
  { refSelect := false, rate := .r50, state := .free, lastTick := now, now := now, glitches := 0, clock := 0,
    running := false, timers := Four.same ⟨0, false⟩, autoMode := .off, constant := 200, paceMin := 16,
    paceMax := 4096 }

/-- The stager after the reset line (R144, R151). -/
def Stager.reset : Stager :=
  { rows := 12, eyeRow := 3, buffer := .none, restage := false, latest := .none, sequence := 0 }

/-- A line output after the reset line, with the default of its mirror (R152, R159). -/
def Output.reset (mirror : Bool) : Output :=
  { config := { enable := true, framing := .master, mirror := mirror }, sending := .none, lastSent := .none,
    packetCounter := 0, underrun := 0, late := 0, collision := 0 }

/-- An entry of the player's table after the reset line (R168). -/
def PlayerEntry.reset : PlayerEntry :=
  { port := 0, deflection := 2048, buttons := Buttons.released, duration := 1 }

/-- The diagnostic player after the reset line (R168, R169). -/
def Player.reset : Player :=
  { table := List.replicate 256 PlayerEntry.reset, length := 0, running := false, loop := false, cursor := some 0,
    remaining := 0 }

/-- The controller after the reset line, with the line still asserted (R165). The snapshot is the model's own and empty
while no save is in flight. -/
def Controller.reset : Controller :=
  { mode := .loading, image := .unknown, storeOp := .load, snapshot := [], player := Player.reset, resetLine := true }

/-- A notice entry after the reset line (R182). -/
def NoticeEntry.reset (kind : NoticeKind) : NoticeEntry :=
  { kind := kind, enabled := true, pending := false, count := 0, detail := .none }

/-- The kinds of the console notice table, in the order of their numbers (R176). -/
def consoleKinds : List NoticeKind :=
  [.authorityChanged, .heldAtMark, .cueLine, .storyAtEye, .commitDone, .commitDeferred, .commitRefused, .portState,
    .referenceState, .outputUnderrun, .cueTimer, .backtimeOver, .jumpDiscarded, .settingsState]

/-- The kinds of the rundown link's notice table: 5, 6 and 7 (R176). -/
def rundownKinds : List NoticeKind :=
  [.commitDone, .commitDeferred, .commitRefused]

/-- A link interface after the reset line, with the kinds its notice table carries (R182). -/
def LinkIface.reset (kinds : List NoticeKind) : LinkIface :=
  { receiver := .hunting, receiveQueue := [], reading := .none, responseQueue := [], line := .none,
    notices := kinds.map NoticeEntry.reset, errors := 0 }

/-- No tick delivered and not yet taken. -/
def TickDue.none : TickDue :=
  { scroll := 0, arbiter := 0, ports := Four.same 0, showTime := 0, player := 0, outA := 0, outB := 0 }

/-- Every block at its reset values, at the instant `now`, beside the settings memory `mem` and the queue `pending`,
which lie outside what the reset line resets. -/
def State.resetAt (now : Nat) (mem : List Host.Cell) (pending : List Instr) : State :=
  { msc := Controller.reset, scs := Store.empty, ede := EditEngine.reset, ports := Four.same HandPort.reset,
    dsh := Four.same Shaping.reset, aua := Arbiter.reset, sce := ScrollEngine.reset, tbp := Timebase.reset now,
    wst := Stager.reset, loa := Output.reset true, lob := Output.reset false, cli := LinkIface.reset consoleKinds,
    rli := LinkIface.reset rundownKinds, due := TickDue.none, mem := mem, pending := pending }

/-- The part right after the reset line is asserted, the line still asserted, at instant 0, with a settings memory that
nothing has written and no command waiting (log entry 9). -/
def State.reset : State := State.resetAt 0 [] []

end Sys2Proof.Machine
end

