-- ==== Sys2Proof/Machine/Frames.lean ====
section
/-! DEFINITION. The formats that cross the part's boundary: byte order, field widths, the check, the codes of enumerated
fields and the layout of link frames (R171, R183). -/

namespace Sys2Proof

/-! ### Codes and mnemonics of the operand types (R183) -/

/-- The code of a link (R183). -/
def Link.code : Link → Nat
  | .console => 0
  | .rundown => 1

/-- The code of an output (R183). -/
def OutputId.code : OutputId → Nat
  | .a => 0
  | .b => 1

/-- The code of an edit kind (R183). -/
def EditParams.code : EditParams → Nat
  | .linesReplace .. => 1
  | .linesInsert .. => 2
  | .storyInsert .. => 3
  | .storyDrop .. => 4
  | .storyMove .. => 5

/-- Four ASCII characters as the mnemonic field of a frame. -/
def ascii (a b c d : Char) : List Byte :=
  [BitVec.ofNat 8 a.toNat, BitVec.ofNat 8 b.toNat, BitVec.ofNat 8 c.toNat, BitVec.ofNat 8 d.toNat]

/-- The mnemonic field of a request's frame. -/
def Mnem.bytes : Mnem → List Byte
  | .rdln => ascii 'R' 'D' 'L' 'N'
  | .rdrn => ascii 'R' 'D' 'R' 'N'
  | .clrs => ascii 'C' 'L' 'R' 'S'
  | .mspd => ascii 'M' 'S' 'P' 'D'
  | .frze => ascii 'F' 'R' 'Z' 'E'
  | .thaw => ascii 'T' 'H' 'A' 'W'
  | .rels => ascii 'R' 'E' 'L' 'S'
  | .jump => ascii 'J' 'U' 'M' 'P'
  | .lock => ascii 'L' 'O' 'C' 'K'
  | .free => ascii 'F' 'R' 'E' 'E'
  | .srcs => ascii 'S' 'R' 'C' 'S'
  | .thrs => ascii 'T' 'H' 'R' 'S'
  | .parm => ascii 'P' 'A' 'R' 'M'
  | .pget => ascii 'P' 'G' 'E' 'T'
  | .crvw => ascii 'C' 'R' 'V' 'W'
  | .crvr => ascii 'C' 'R' 'V' 'R'
  | .cntr => ascii 'C' 'N' 'T' 'R'
  | .clkc => ascii 'C' 'L' 'K' 'C'
  | .cuea => ascii 'C' 'U' 'E' 'A'
  | .cued => ascii 'C' 'U' 'E' 'D'
  | .amod => ascii 'A' 'M' 'O' 'D'
  | .eopn => ascii 'E' 'O' 'P' 'N'
  | .elin => ascii 'E' 'L' 'I' 'N'
  | .eabn => ascii 'E' 'A' 'B' 'N'
  | .ecmt => ascii 'E' 'C' 'M' 'T'
  | .qcan => ascii 'Q' 'C' 'A' 'N'
  | .qfrc => ascii 'Q' 'F' 'R' 'C'
  | .slck => ascii 'S' 'L' 'C' 'K'
  | .tgts => ascii 'T' 'G' 'T' 'S'
  | .rfsl => ascii 'R' 'F' 'S' 'L'
  | .stat => ascii 'S' 'T' 'A' 'T'
  | .mode => ascii 'M' 'O' 'D' 'E'
  | .save => ascii 'S' 'A' 'V' 'E'
  | .load => ascii 'L' 'O' 'A' 'D'
  | .dgld => ascii 'D' 'G' 'L' 'D'
  | .dgrn => ascii 'D' 'G' 'R' 'N'
  | .nten => ascii 'N' 'T' 'E' 'N'

end Sys2Proof

namespace Sys2Proof.Machine

/-! ### Fields, most significant byte first (R183) -/

/-- A field of one byte. -/
def u8 (n : Nat) : List Byte := [BitVec.ofNat 8 n]

/-- A field of two bytes. -/
def u16 (n : Nat) : List Byte := [BitVec.ofNat 8 (n / 256), BitVec.ofNat 8 n]

/-- A field of three bytes: a LID. -/
def u24 (n : Nat) : List Byte := BitVec.ofNat 8 (n / 65536) :: u16 n

/-- A field of four bytes. -/
def u32 (n : Nat) : List Byte := BitVec.ofNat 8 (n / 16777216) :: u24 n

/-- A signed field of two bytes in two's complement. -/
def i16 (v : Int) : List Byte := u16 (v % 65536).toNat

/-- A flag or an enable: 0 for off, 1 for on. -/
def flag (b : Bool) : List Byte := u8 b.toNat

/-- A field that may be absent: a presence byte, then the field when present. -/
def opt {α : Type} (f : α → List Byte) : Option α → List Byte
  | none => u8 0
  | some a => u8 1 ++ f a

/-- A list of entries: a count byte, then the entries. -/
def listOf {α : Type} (f : α → List Byte) (l : List α) : List Byte :=
  u8 l.length ++ l.flatMap f

/-- A list of character cells: a count byte, then two bytes for each cell. -/
def cells (l : List CharCell) : List Byte :=
  listOf (fun c => u16 c.toNat) l

/-- A set of the edge buttons: HOLD_TOGGLE, GO, NEXT, PREV at bits 0 to 3, with the weight of CLAIM added at bit 4. -/
def edgesCode (e : Edges) (claim : Bool) : Nat :=
  e.holdToggle.toNat + 2 * e.go.toNat + 4 * e.next.toNat + 8 * e.prev.toNat + 16 * claim.toNat

/-- A set of buttons: one byte laid out as word 3 of a hand frame (R184). -/
def buttonsByte (b : Buttons) : List Byte := u8 (edgesCode b.edges b.claim)

/-- The buttons a number stands for, bits 0 to 4 as in word 3 of a hand frame; the other bits are ignored (R184). -/
def buttonsOf (n : Nat) : Buttons :=
  ⟨⟨n.testBit 0, n.testBit 1, n.testBit 2, n.testBit 3⟩, n.testBit 4⟩

/-- The byte of a set of page slots that holds slots `8 k` to `8 k + 7`: slot `8 k + j` at bit `j` (R183). -/
def pageSetByte (page : Page) (k : Nat) : List Byte :=
  u8 (((List.range 8).map fun j => if (page.getD (8 * k + j) none).isSome then 2 ^ j else 0).sum)

/-- A set of page slots: eight bytes (R183). -/
def pageSet (page : Page) : List Byte :=
  (List.range 8).flatMap (pageSetByte page)

/-! ### Codes of enumerated fields (R183, R185) -/

/-- The output of a code, none outside the set (R152, R183). -/
def outputOfCode? : Nat → Option OutputId
  | 0 => some .a
  | 1 => some .b
  | _ => none

/-- The link of a code, none outside the set (R183). -/
def linkOfCode? : Nat → Option Link
  | 0 => some .console
  | 1 => some .rundown
  | _ => none

/-- The code of an operating mode (R183). -/
def Mode.code : Mode → Nat
  | .loading => 0
  | .setup => 1
  | .rehearsal => 2
  | .onAir => 3
  | .diagnostic => 4

/-- The mode of a code, none outside the set (R161, R183). -/
def modeOfCode? : Nat → Option Mode
  | 0 => some .loading
  | 1 => some .setup
  | 2 => some .rehearsal
  | 3 => some .onAir
  | 4 => some .diagnostic
  | _ => none

/-- The code of a style (R185). -/
def Style.code : Style → Nat
  | .normal => 0
  | .emphasis => 1
  | .alert => 2
  | .reverse => 3

/-- The style of a code, none outside the set (R122, R185). -/
def styleOfCode? : Nat → Option Style
  | 0 => some .normal
  | 1 => some .emphasis
  | 2 => some .alert
  | 3 => some .reverse
  | _ => none

/-- The code of a mark (R185). -/
def Mark.code : Mark → Nat
  | .none => 0
  | .hold => 1
  | .cue _ => 2

/-- The cue number of a mark, when it is CUE (R2). -/
def Mark.cue? : Mark → Option Nat
  | .cue n => some n
  | _ => Option.none

/-- The code of an auto mode (R183). -/
def AutoMode.code : AutoMode → Nat
  | .off => 0
  | .constant => 1
  | .pace => 2

/-- The auto mode of a code, none outside the set (R115, R183). -/
def autoModeOfCode? : Nat → Option AutoMode
  | 0 => some .off
  | 1 => some .constant
  | 2 => some .pace
  | _ => none

/-- The code of a framing (R183). -/
def Framing.code : Framing → Nat
  | .master => 0
  | .slave => 1

/-- The framing of a code, none outside the set (R152). -/
def framingOfCode? : Nat → Option Framing
  | 0 => some .master
  | 1 => some .slave
  | _ => none

/-- The code of a nominal rate (R183). -/
def Rate.code : Rate → Nat
  | .r50 => 0
  | .r5994 => 1
  | .r60 => 2

/-- The nominal rate of a code, none outside the set (R109). -/
def rateOfCode? : Nat → Option Rate
  | 0 => some .r50
  | 1 => some .r5994
  | 2 => some .r60
  | _ => none

/-- The code of a scroll state (R183). -/
def ScrollState.code : ScrollState → Nat
  | .running => 0
  | .frozen => 1
  | .held => 2

/-- The code of a port state (R183). -/
def PortState.code : PortState → Nat
  | .disabled => 0
  | .absent => 1
  | .live => 2
  | .silent => 3
  | .fault => 4

/-- The code of a unit kind (R183). -/
def UnitKind.code : UnitKind → Nat
  | .wheel => 1
  | .pedal => 2
  | .stick => 3

/-- The unit kind of word 1's field, none when out of range (R75, R184). -/
def unitKindOfCode? : Nat → Option UnitKind
  | 1 => some .wheel
  | 2 => some .pedal
  | 3 => some .stick
  | _ => none

/-- The code of an assembler state: IDLE, OPEN, HUNT (R183). -/
def Assembler.code : Assembler → Nat
  | .idle => 0
  | .open1 .. => 1
  | .open2 .. => 1
  | .hunt => 2

/-- The code of a timebase state (R183). -/
def RefState.code : RefState → Nat
  | .free => 0
  | .locked => 1
  | .lost => 2

/-- The code of an edit slot state (R183). -/
def EditSlot.code : EditSlot → Nat
  | .closed => 0
  | .opened .. => 1
  | .copying .. => 2

/-- The code of a queue entry state (R183). -/
def EntryState.code : EntryState → Nat
  | .copying => 0
  | .waiting => 1
  | .deferred => 2

/-- The code of an image state (R183). -/
def ImageState.code : ImageState → Nat
  | .unknown => 0
  | .valid => 1
  | .invalid => 2

/-- The code of a store operation (R183). -/
def StoreOp.code : StoreOp → Nat
  | .idle => 0
  | .load => 1
  | .save => 2

/-- The code of a cause (R183). -/
def Cause.code : Cause → Nat
  | .noEdit => 1
  | .incomplete => 2
  | .queueFull => 3
  | .duplicateTag => 4
  | .unknownStory => 5
  | .storyExists => 6
  | .badSpan => 7
  | .locked => 8
  | .storyFull => 9
  | .rundownFull => 10
  | .poolFull => 11
  | .idsExhausted => 12
  | .cancelled => 13
  | .unknownEntry => 14
  | .order => 15
  | .sticky => 16
  | .unknownLine => 17
  | .unknownTarget => 18
  | .noSample => 19
  | .badTransition => 20
  | .emptyTable => 21

/-- The number of a notice kind (R176). -/
def NoticeKind.number : NoticeKind → Nat
  | .authorityChanged => 1
  | .heldAtMark => 2
  | .cueLine => 3
  | .storyAtEye => 4
  | .commitDone => 5
  | .commitDeferred => 6
  | .commitRefused => 7
  | .portState => 8
  | .referenceState => 9
  | .outputUnderrun => 10
  | .cueTimer => 11
  | .backtimeOver => 12
  | .jumpDiscarded => 13
  | .settingsState => 14

/-- The number of a source (R51). -/
def Source.number : Source → Nat
  | .console => 0
  | .hand n => n.val + 1
  | .auto => 5

/-- The source of a number, none outside 0..5 (R64, R66). -/
def sourceOfNumber? : Nat → Option Source
  | 0 => some .console
  | 1 => some (.hand 0)
  | 2 => some (.hand 1)
  | 3 => some (.hand 2)
  | 4 => some (.hand 3)
  | 5 => some .auto
  | _ => none

/-- A holder or lock: its source number, or FFh for none (R183). -/
def holderCode : Option Source → Nat
  | none => 255
  | some s => s.number

/-- The kind code of a jump target (R183). -/
def JumpTarget.code : JumpTarget → Nat
  | .top => 0
  | .story _ => 1
  | .next => 2
  | .prev => 3
  | .line _ => 4

/-- The story number or LID of a jump target, 0 where its kind has none (R183). -/
def JumpTarget.param : JumpTarget → Nat
  | .story n => n
  | .line lid => lid
  | _ => 0

/-- A jump target in four bytes: its kind, then the story number or LID (R183). -/
def jumpBytes (t : JumpTarget) : List Byte := u8 t.code ++ u24 t.param

/-- The port numbered `n`, none outside 0..3. -/
def portOf? (n : Nat) : Option (Fin 4) :=
  if h : n < 4 then some ⟨n, h⟩ else none

/-- The mnemonics of the part, each once. -/
def allMnems : List Mnem :=
  [.rdln, .rdrn, .clrs, .mspd, .frze, .thaw, .rels, .jump, .lock, .free, .srcs, .thrs, .parm, .pget, .crvw, .crvr,
    .cntr, .clkc, .cuea, .cued, .amod, .eopn, .elin, .eabn, .ecmt, .qcan, .qfrc, .slck, .tgts, .rfsl, .stat, .mode,
    .save, .load, .dgld, .dgrn, .nten]

/-- The mnemonic a frame's field names, none when it is not one of the part's requests (R173, test 1). -/
def mnemOf? (bytes : List Byte) : Option Mnem :=
  allMnems.find? (fun m => m.bytes = bytes)

/-! ### The check (R171) -/

/-- One bit of the check: polynomial x^16 + x^12 + x^5 + 1, most significant bit first. -/
def crcBit (crc : Word16) : Word16 :=
  if crc.msb then (crc <<< 1) ^^^ 0x1021#16 else crc <<< 1

/-- One byte of the check enters the register most significant bit first. -/
def crcByte (crc : Word16) (b : Byte) : Word16 :=
  (List.range 8).foldl (fun c _ => crcBit c) (crc ^^^ (b.setWidth 16 <<< 8))

/-- The CRC-16 of R171 over a run of bytes, started at all ones, not reflected, with no final value XORed in. -/
def crc16 (bytes : List Byte) : Word16 :=
  bytes.foldl crcByte 0xFFFF#16

/-! ### Link frames (R183) -/

/-- The start marker of a link frame. -/
def startMarker : Byte := 0xA5#8

/-- The code of a frame kind (R183). -/
def FrameKind.code : FrameKind → Nat
  | .request => 1
  | .response => 2
  | .notice => 3

/-- The bytes of a link frame the check runs over: length, kind, tag, mnemonic, payload. -/
def LinkFrame.body (f : LinkFrame) : List Byte :=
  u16 (f.payload.length + 6) ++ u8 f.kind.code ++ [f.tag] ++ f.mnem ++ f.payload

/-- The bytes of a link frame as they pass on the line. -/
def LinkFrame.bytes (f : LinkFrame) : List Byte :=
  startMarker :: (f.body ++ u16 (crc16 f.body).toNat)

/-- The payload of a response: its status byte, then the data, or the cause byte and a four-byte detail. -/
def Status.payload : Status → List Byte
  | .ok data => u8 0 ++ data
  | .busy => u8 1
  | .notPermitted => u8 2
  | .badRequest => u8 3
  | .refused cause detail => u8 4 ++ u8 cause.code ++ u32 detail

/-- The frame that carries a response (R174, R183). -/
def Response.frame (r : Response) : LinkFrame :=
  { kind := .response, tag := r.tag, mnem := r.mnem, payload := r.status.payload }

/-- The code of a settings outcome (R183). -/
def SettingsOutcome.code : SettingsOutcome → Nat
  | .defaulted => 1
  | .saved => 2
  | .saveFailed => 3

/-- The cause byte of a commit notice: 0 except for COMMIT_REFUSED (R183). -/
def causeByte : Option Cause → List Byte
  | none => u8 0
  | some c => u8 c.code

/-- The four bytes of a notice's detail (R183). -/
def NoticeDetail.bytes : NoticeDetail → List Byte
  | .value n => u32 n
  | .holder h => u8 (holderCode h) ++ u8 0 ++ u16 0
  | .commit link tag cause => u8 link.code ++ [tag] ++ causeByte cause ++ u8 0
  | .port p st => u8 p.val ++ u8 st.code ++ u16 0
  | .reference st => u32 st.code
  | .output o => u32 o.code
  | .jump t => jumpBytes t
  | .settings o => u32 o.code

/-- The detail bytes of an entry: its latest detail; an entry without one, which is never pending, gives zeros. -/
def detailBytes : Option NoticeDetail → List Byte
  | none => u32 0
  | some d => d.bytes

/-- The frame of a notice: kind NOTICE, tag 0, mnemonic NTCE, and kind number, count and detail as payload (R177). -/
def NoticeEntry.frame (e : NoticeEntry) : LinkFrame :=
  { kind := .notice, tag := 0, mnem := ascii 'N' 'T' 'C' 'E',
    payload := u8 e.kind.number ++ u8 e.count ++ detailBytes e.detail }

/-! ### Receiving link frames (R171) -/

/-- What a receiver makes of one byte. -/
inductive Received where
  /-- The receiver goes on, in the state given. -/
  | more (r : Receiver)
  /-- The frame is discarded and the link error counter counts one; the receiver hunts. -/
  | discard
  /-- A frame that passed the checks; the receiver hunts. -/
  | frame (f : RequestFrame)
deriving DecidableEq, Repr

/-- The length field of the bytes assembled so far. -/
def lengthField (bytes : List Byte) : Nat :=
  256 * (bytes.getD 0 0).toNat + (bytes.getD 1 0).toNat

/-- A whole frame, from its length field to its check, judged: the check must match and the kind be REQUEST. -/
def judgeFrame (bytes : List Byte) : Received :=
  let body := bytes.take (lengthField bytes + 2)
  let check := bytes.drop (lengthField bytes + 2)
  if check = u16 (crc16 body).toNat ∧ bytes.getD 2 0 = BitVec.ofNat 8 FrameKind.request.code then
    .frame { tag := bytes.getD 3 0, mnem := (body.drop 4).take 4, payload := body.drop 8 }
  else .discard

/-- One byte at a receiver (R171, R183): while hunting only a start marker counts; while assembling, bytes are counted by
the length field, which is judged as soon as it is whole (log entry 15). -/
def receiveByte (r : Receiver) (b : Byte) : Received :=
  match r with
  | .hunting => if b = startMarker then .more (.assembling []) else .more .hunting
  | .assembling prior =>
    let bytes := prior ++ [b]
    if bytes.length < 2 then .more (.assembling bytes)
    else if lengthField bytes < 6 ∨ 1026 < lengthField bytes then .discard
    else if bytes.length < lengthField bytes + 4 then .more (.assembling bytes)
    else judgeFrame bytes

end Sys2Proof.Machine
end

