-- ==== Sys2Proof/Machine/Store.lean ====
section
/-! DEFINITION. The script store, SCS: its lookups (R7 to R9), reservation (R3), release (R4) and the apply of a commit
(R10 to R15) with its content-changed report (R16). -/

namespace Sys2Proof.Machine

/-! ### Lookups (R7, R8, R9) -/

/-- The reading order: the in-use lines, stories in rundown order and each story's lines in order (R7). -/
def Store.order (st : Store) : List Nat :=
  st.rundown.flatMap (·.lines)

/-- The number of lines in use, L (R8). -/
def Store.lineCount (st : Store) : Nat := st.order.length

/-- Slots in use, counted in the pool (R1). -/
def Store.inUse (st : Store) : Nat :=
  st.pool.countP (·.story.isSome)

/-- Reserved slots (R1). -/
def Store.reserved (st : Store) : Nat :=
  st.pool.countP (·.story.isNone)

/-- Free slots (R1). -/
def Store.free (st : Store) : Nat :=
  Config.poolSlots - st.pool.length

/-- The in-use line a LID names, or no such line: a free, retired or reserved LID names none (R9). -/
def Store.line? (st : Store) (lid : Nat) : Option PoolLine :=
  st.pool.find? (fun l => l.lid = lid && l.story.isSome)

/-- The ordinal of a line: its index in the reading order (R7). -/
def Store.ordinal? (st : Store) (lid : Nat) : Option Nat :=
  st.order.idxOf? lid

/-- The line at an ordinal, none outside 0..L − 1 (R9). -/
def Store.lineAt? (st : Store) (ordinal : Nat) : Option Nat :=
  st.order[ordinal]?

/-- The top of a line at an ordinal, in units of 1/4096 line (R8). -/
def topOf (ordinal : Nat) : Nat := ordinal * Config.unitsPerLine

/-- The end position: the top of the last line; 0 for an empty script, which has none (R8). -/
def Store.endPosition (st : Store) : Nat := topOf (st.lineCount - 1)

/-- The mark of an in-use line (R2). -/
def Store.markOf (st : Store) (lid : Nat) : Mark :=
  match (st.line? lid).bind (·.content) with
  | some c => c.mark
  | none => Mark.none

/-- The story an in-use line belongs to (R2). -/
def Store.storyOfLine? (st : Store) (lid : Nat) : Option Nat :=
  (st.line? lid).bind (·.story)

/-- The story record of a number, or no such story (R9). -/
def Store.story? (st : Store) (number : Nat) : Option Story :=
  st.rundown.find? (·.number = number)

/-- The index of a story in the rundown (R6). -/
def Store.storyIndex (st : Store) (number : Nat) : Nat :=
  st.rundown.findIdx (·.number = number)

/-- The first line of the nearest story after index `i` that has lines (R9). -/
def Store.firstLineAfter? (st : Store) (i : Nat) : Option Nat :=
  ((st.rundown.drop (i + 1)).flatMap (·.lines)).head?

/-- The first line of the nearest story before index `i` that has lines (R9, R41). -/
def Store.firstLineOfPrevStory? (st : Store) (i : Nat) : Option Nat :=
  (((st.rundown.take i).filter (fun s => !s.lines.isEmpty)).getLast?).bind (·.lines.head?)

/-- A story's end: the top of the line that follows its last line, whether or not such a line exists; none for a story
without lines (R8). -/
def Store.storyEnd? (st : Store) (s : Story) : Option Nat :=
  (s.lines.getLast?.bind st.ordinal?).map (fun o => topOf (o + 1))

/-! ### Reservation and release (R3, R4) -/

/-- Reserve `n` lines: POOL_FULL, then IDS_EXHAUSTED, else the LIDs counter, counter + 1, … in page order (R3). -/
def Store.reserve (st : Store) (n : Nat) : Except Cause (Store × List Nat) :=
  if st.free < n then .error .poolFull
  else if Config.lidMax < st.nextLid + n - 1 then .error .idsExhausted
  else
    let lids := (List.range n).map (st.nextLid + ·)
    .ok ({ st with pool := st.pool ++ lids.map (fun l => ⟨l, none, none⟩), nextLid := st.nextLid + n }, lids)

/-- Free the lines of some LIDs; the LIDs are retired, since the counter is not moved back (R4). -/
def Store.release (st : Store) (lids : List Nat) : Store :=
  { st with pool := st.pool.filter (fun l => !lids.contains l.lid) }

/-- Write a page's slots into the lines reserved for an entry: page slot k into its k-th LID (R2, R128). -/
def Store.writePage (st : Store) (lids : List Nat) (page : Page) : Store :=
  { st with
    pool := st.pool.map fun l =>
      match lids.idxOf? l.lid with
      | some k => { l with content := page.getD k none }
      | none => l }

/-! ### Apply (R10 to R15) and its report (R16) -/

/-- What caused a content-changed report: a commit kind by its code, or CLEARED (R16). -/
inductive ReportCause where
  | kind (code : Nat)
  | cleared
deriving DecidableEq, Repr

/-- The content-changed report (R16). -/
structure ContentReport where
  cause : ReportCause
  removed : List Nat
  firstNew : Option Nat
  replaced : Bool
  before : Option Nat
  after : Option Nat
  wasEmpty : Bool
  nowEmpty : Bool
deriving DecidableEq, Repr

/-- The lines of a story from `first` to `last`, both included (R11). -/
def spanOf (lines : List Nat) (first last : Nat) : List Nat :=
  (lines.drop (lines.idxOf first)).take (lines.idxOf last + 1 - lines.idxOf first)

/-- A story's lines with the span replaced by new lines in the same place (R11). -/
def replaceSpan (lines : List Nat) (first last : Nat) (new : List Nat) : List Nat :=
  lines.take (lines.idxOf first) ++ new ++ lines.drop (lines.idxOf last + 1)

/-- A story's lines with new lines directly after a line, or at the start (R12). -/
def insertLines (lines : List Nat) (after : Option Nat) (new : List Nat) : List Nat :=
  match after with
  | none => new ++ lines
  | some a => lines.take (lines.idxOf a + 1) ++ new ++ lines.drop (lines.idxOf a + 1)

/-- The rundown before and after an insertion point: directly after the after-story, or at the start (R13, R129). -/
def splitAfter (rundown : List Story) (after : Option Nat) : List Story × List Story :=
  match after with
  | none => ([], rundown)
  | some a => rundown.splitAt (rundown.findIdx (·.number = a) + 1)

/-- A story put into the rundown at an insertion point (R13, R15). -/
def insertStory (rundown : List Story) (after : Option Nat) (s : Story) : List Story :=
  (splitAfter rundown after).1 ++ s :: (splitAfter rundown after).2

/-- The rundown without a story (R14, R15). -/
def withoutStory (rundown : List Story) (number : Nat) : List Story :=
  rundown.filter (·.number ≠ number)

/-- The rundown with the line list of one story changed (R11, R12). -/
def changeLines (rundown : List Story) (number : Nat) (f : List Nat → List Nat) : List Story :=
  rundown.map fun s => if s.number = number then { s with lines := f s.lines } else s

/-- The reserved lines become in use and take the number of the story they join (R10). -/
def linkLines (pool : List PoolLine) (lids : List Nat) (story : Nat) : List PoolLine :=
  pool.map fun l => if lids.contains l.lid then { l with story := some story } else l

/-- The lines an apply of an edit removes, in their former order (R11, R14). -/
def Store.removedBy (st : Store) : EditParams → List Nat
  | .linesReplace s f l =>
    match st.story? s with
    | some story => spanOf story.lines f l
    | none => []
  | .storyDrop s =>
    match st.story? s with
    | some story => story.lines
    | none => []
  | _ => []

/-- The rundown an apply of an edit leaves, its reserved lines linked in page order (R11 to R15). -/
def Store.rundownAfter (st : Store) (edit : EditParams) (lids : List Nat) : List Story :=
  match edit with
  | .linesReplace s f l => changeLines st.rundown s (fun ls => replaceSpan ls f l lids)
  | .linesInsert s a => changeLines st.rundown s (fun ls => insertLines ls a lids)
  | .storyInsert s a slug t =>
    insertStory st.rundown a { number := s, slug := slug, target := t, lines := lids, overrun := false }
  | .storyDrop s => withoutStory st.rundown s
  | .storyMove s a =>
    match st.story? s with
    | some story => insertStory (withoutStory st.rundown s) a story
    | none => st.rundown

/-- The story an edit names or makes: the one story a commit touches (R129). -/
def editStory : EditParams → Nat
  | .linesReplace s _ _ => s
  | .linesInsert s _ => s
  | .storyInsert s _ _ _ => s
  | .storyDrop s => s
  | .storyMove s _ => s

/-- The line directly before a removed run in reading order; absent for an empty run (R16). -/
def Store.lineBefore? (st : Store) (run : List Nat) : Option Nat :=
  match run.head?.bind st.ordinal? with
  | some (o + 1) => st.lineAt? o
  | _ => none

/-- The line directly after a removed run in reading order; absent for an empty run (R16). -/
def Store.lineAfter? (st : Store) (run : List Nat) : Option Nat :=
  match run.getLast?.bind st.ordinal? with
  | some o => st.lineAt? (o + 1)
  | none => none

/-- Whether an edit is a LINES_REPLACE: the report's `replaced` (R16). -/
def isReplace : EditParams → Bool
  | .linesReplace .. => true
  | _ => false

/-- The store after the apply of an edit with its reserved lines (R10). -/
def Store.applied (st : Store) (edit : EditParams) (lids : List Nat) : Store :=
  { st with
    pool := linkLines (st.pool.filter (fun l => !(st.removedBy edit).contains l.lid)) lids (editStory edit)
    rundown := st.rundownAfter edit lids }

/-- The content-changed report of an apply (R16). -/
def Store.report (st : Store) (edit : EditParams) (lids : List Nat) : ContentReport :=
  { cause := .kind edit.code
    removed := st.removedBy edit
    firstNew := lids.head?
    replaced := isReplace edit
    before := st.lineBefore? (st.removedBy edit)
    after := st.lineAfter? (st.removedBy edit)
    wasEmpty := st.order.isEmpty
    nowEmpty := (st.applied edit lids).order.isEmpty }

/-- The content-changed report of a CLEAR SHOW, from the store as it stood before the clear (R16, R19). -/
def Store.clearReport (st : Store) : ContentReport :=
  { cause := .cleared, removed := [], firstNew := none, replaced := false, before := none, after := none
    wasEmpty := st.order.isEmpty, nowEmpty := true }

end Sys2Proof.Machine
end

