-- ==== Sys2Proof/Machine/Flags.lean ====
section
/-! DEFINITION. The flag and counter computations shared by the blocks: counters that stop, flags of a notice entry,
press edges, and the conditions the manual derives from other state instead of storing them. -/

namespace Sys2Proof.Machine

/-- A 16-bit counter counts one and stops at 65,535 (R76, R106, R157, R171). -/
def bump (n : Nat) : Nat := min (n + 1) Config.counterMax

/-- A 16-bit counter counts `g` and stops at 65,535 (R76, R79). -/
def bumpBy (n g : Nat) : Nat := min (n + g) Config.counterMax

/-- A value outside a range is replaced by the nearest value in range (section 1.4). -/
def clampTo (lo hi n : Nat) : Nat := max lo (min n hi)

/-- A signed speed clamped to −16,384..+16,384 (R36). -/
def clampSpeed (v : Int) : Int := max (-(Config.speedMax : Int)) (min v Config.speedMax)

/-! ### Notice entries (R176, R177) -/

/-- A raise: pending is set, the count rises and stops at 255, the detail is replaced (R176). -/
def NoticeEntry.raised (e : NoticeEntry) (d : NoticeDetail) : NoticeEntry :=
  { e with pending := true, count := min (e.count + 1) 255, detail := some d }

/-- The entry at the start of its send: pending is cleared, the count becomes 0, the detail is kept (R177). -/
def NoticeEntry.sent (e : NoticeEntry) : NoticeEntry :=
  { e with pending := false, count := 0 }

/-- The notice table with a kind raised; a table without the kind is left as it is (R176). -/
def raiseIn (table : List NoticeEntry) (k : NoticeKind) (d : NoticeDetail) : List NoticeEntry :=
  table.map fun e => if e.kind = k then e.raised d else e

/-! ### Press edges (R84, R86) -/

/-- The levels that are pressed now and were released before (R84). -/
def edgesPressed (now before : Edges) : Edges :=
  { holdToggle := now.holdToggle && !before.holdToggle
    go := now.go && !before.go
    next := now.next && !before.next
    prev := now.prev && !before.prev }

/-- Latches already pending stay pending beside new ones (R84). -/
def edgesOr (a b : Edges) : Edges :=
  { holdToggle := a.holdToggle || b.holdToggle
    go := a.go || b.go
    next := a.next || b.next
    prev := a.prev || b.prev }

/-- The press edges a frame or sample latches against a record; a record that is none latches none (R84, R86). -/
def pressEdges (now : Edges) (record : Option Edges) : Edges :=
  match record with
  | none => Edges.none
  | some before => edgesPressed now before

/-! ### Derived conditions -/

/-- The enable of a hand port: off exactly in DISABLED (R80, section 4.4). -/
def HandPort.enabled (p : HandPort) : Bool := p.state ≠ .disabled

/-- The part is in a mode in which no source holds and the scroll is still (R24, R56). -/
def Mode.suspended (m : Mode) : Bool := m = .setup || m = .loading

/-- A settings load is in flight: the store operation is LOAD and the reset line is released (R164, R165). -/
def Controller.loading (c : Controller) : Bool := c.storeOp = .load && !c.resetLine

/-- The interface can take the head of its receive queue: it is ready and the response queue has room (R173). -/
def LinkIface.canExecute (l : LinkIface) : Bool :=
  l.reading.isNone && l.responseQueue.length < Config.responseQueueMax

/-- Places taken in the response queue, the one held for a read in flight included (R173). -/
def LinkIface.responsePlaces (l : LinkIface) : Nat :=
  l.responseQueue.length + l.reading.isSome.toNat

/-- A lock entry covers a story (R137). -/
def LockEntry.covers (e : LockEntry) (story : Nat) : Bool :=
  e.inUse && e.low ≤ story && story ≤ e.high

/-- What a lock entry says for a link (R137). -/
def LockEntry.allows (e : LockEntry) : Link → Bool
  | .console => e.console
  | .rundown => e.rundown

/-- A story is LOCKED for a link when any entry that covers it says no (R137). -/
def EditEngine.lockedFor (ed : EditEngine) (link : Link) (story : Nat) : Bool :=
  ed.locks.any (fun e => e.covers story && !e.allows link)

end Sys2Proof.Machine
end

