-- ==== Sys2Proof/Machine/Operands.lean ====
section
/-! DEFINITION. The operand forms of the requests: the payload each request carries, written and read (R183).

The fields stand in the order in which the owning rule lists them. A payload shorter than its fields need, or with bytes
left over once they are read, reads as no request and is answered BAD_REQUEST (R174, R183). Log entry 14 says how the
forms that R183 does not spell out field by field are laid out. -/

namespace Sys2Proof.Machine

/-- A reader of payload fields: it takes bytes from the front, or fails where they run out. -/
abbrev Reader (α : Type) := StateT (List Byte) Option α

/-- One byte. -/
def readByte : Reader Byte
  | [] => none
  | b :: rest => some (b, rest)

/-- A field of one byte. -/
def read8 : Reader Nat := do
  let b ← readByte
  return b.toNat

/-- A field of two bytes, most significant first. -/
def read16 : Reader Nat := do
  let hi ← read8
  let lo ← read8
  return 256 * hi + lo

/-- A field of three bytes. -/
def read24 : Reader Nat := do
  let hi ← read8
  let lo ← read16
  return 65536 * hi + lo

/-- A field of four bytes. -/
def read32 : Reader Nat := do
  let hi ← read8
  let lo ← read24
  return 16777216 * hi + lo

/-- A signed field of two bytes in two's complement. -/
def readSigned : Reader Int := do
  let n ← read16
  return if n < 32768 then (n : Int) else (n : Int) - 65536

/-- A flag: 0 is off, any other value on. R178 says so for NTEN; that a flag byte of SRCS, SLCK and DGRN other than 0 and
1 is on too is the model's choice (log entry 15). -/
def readFlag : Reader Bool := do
  let n ← read8
  return n ≠ 0

/-- A field that may be absent: a presence byte of 0 or 1, then the field when present (log entry 15). -/
def readOpt {α : Type} (r : Reader α) : Reader (Option α) := do
  let p ← read8
  if p = 0 then return none
  else if p = 1 then
    let a ← r
    return some a
  else failure

/-- `n` entries. -/
def readTimes {α : Type} (r : Reader α) : Nat → Reader (List α)
  | 0 => return []
  | n + 1 => do
    let a ← r
    let rest ← readTimes r n
    return a :: rest

/-- A list: a count byte, then the entries. -/
def readList {α : Type} (r : Reader α) : Reader (List α) := do
  let n ← read8
  readTimes r n

/-- One character cell. -/
def readCell : Reader CharCell := do
  let n ← read16
  return BitVec.ofNat 16 n

/-! ### Payloads written -/

/-- The kind and parameters of an edit (R121). -/
def editBytes (e : EditParams) : List Byte :=
  u8 e.code ++
  match e with
  | .linesReplace s f l => u16 s ++ u24 f ++ u24 l
  | .linesInsert s a => u16 s ++ opt u24 a
  | .storyInsert s a slug t => u16 s ++ opt u16 a ++ opt cells slug ++ opt u32 t
  | .storyDrop s => u16 s
  | .storyMove s a => u16 s ++ opt u16 a

/-- An entry of a DGLD's list (R168): port, deflection, buttons, duration. -/
def playerArgBytes (e : PlayerArg) : List Byte :=
  u8 e.port ++ u16 e.deflection ++ buttonsByte e.buttons ++ u16 e.duration

/-- The payload of a request. A field that only some instances of the request carry (an index, CLKC's value, DGRN's loop
flag) stands behind a presence byte, and the page line count n of EOPN and the count of RDLN take one byte (log entry
14). -/
def requestPayload : Request → List Byte
  | .rdln lid c => u24 lid ++ u8 c
  | .rdrn p => u8 p
  | .clrs => []
  | .mspd v => i16 v
  | .frze => []
  | .thaw => []
  | .rels => []
  | .jump k p => u8 k ++ u24 p
  | .lock n => u8 n
  | .free => []
  | .srcs n e p => u8 n ++ flag e ++ u8 p
  | .thrs v => u8 v
  | .parm n i v => u8 n ++ opt u8 i ++ u32 v
  | .pget n i => u8 n ++ opt u8 i
  | .crvw p f vs => u8 p ++ u8 f ++ listOf u16 vs
  | .crvr p => u8 p
  | .cntr p => u8 p
  | .clkc a v => u8 a ++ opt u32 v
  | .cuea k c => u8 k ++ u32 c
  | .cued k => u8 k
  | .amod m c => u8 m ++ opt u16 c
  | .eopn e n => (match e with | none => u8 0 | some p => editBytes p) ++ u16 n
  | .elin k st m c tx => u8 k ++ u8 st ++ u8 m ++ opt u8 c ++ cells tx
  | .eabn => []
  | .ecmt => []
  | .qcan l t => u8 l ++ u8 t
  | .qfrc l t => u8 l ++ u8 t
  | .slck e lo hi c r st u => u8 e ++ u16 lo ++ u16 hi ++ flag c ++ flag r ++ flag st ++ flag u
  | .tgts n v => u16 n ++ opt u32 v
  | .rfsl => []
  | .stat k i => u8 k ++ opt u8 i
  | .mode m => u8 m
  | .save => []
  | .load => []
  | .dgld f es n => u8 f ++ listOf playerArgBytes es ++ u16 n
  | .dgrn a lo => u8 a ++ opt flag lo
  | .nten ps => listOf (fun p => u8 p.1 ++ flag p.2) ps

/-! ### Payloads read -/

/-- The parameters of an edit of the kind coded `kind`; an unknown kind has no layout and fails (R121). -/
def readEdit (kind : Nat) : Reader EditParams :=
  match kind with
  | 1 => do
    let s ← read16
    let f ← read24
    let l ← read24
    return .linesReplace s f l
  | 2 => do
    let s ← read16
    let a ← readOpt read24
    return .linesInsert s a
  | 3 => do
    let s ← read16
    let a ← readOpt read16
    let slug ← readOpt (readList readCell)
    let t ← readOpt read32
    return .storyInsert s a slug t
  | 4 => do
    let s ← read16
    return .storyDrop s
  | 5 => do
    let s ← read16
    let a ← readOpt read16
    return .storyMove s a
  | _ => failure

/-- An entry of a DGLD's list (R168). -/
def readPlayerArg : Reader PlayerArg := do
  let port ← read8
  let deflection ← read16
  let buttons ← read8
  let duration ← read16
  return { port := port, deflection := deflection, buttons := buttonsOf buttons, duration := duration }

/-- A kind number and an enable (R178). -/
def readPair : Reader (Nat × Bool) := do
  let k ← read8
  let e ← readFlag
  return (k, e)

/-- The fields of a request of mnemonic `m`. -/
def readRequest (m : Mnem) : Reader Request :=
  match m with
  | .rdln => do
    let lid ← read24
    let c ← read8
    return .rdln lid c
  | .rdrn => do
    let p ← read8
    return .rdrn p
  | .clrs => return .clrs
  | .mspd => do
    let v ← readSigned
    return .mspd v
  | .frze => return .frze
  | .thaw => return .thaw
  | .rels => return .rels
  | .jump => do
    let k ← read8
    let p ← read24
    return .jump k p
  | .lock => do
    let n ← read8
    return .lock n
  | .free => return .free
  | .srcs => do
    let n ← read8
    let e ← readFlag
    let p ← read8
    return .srcs n e p
  | .thrs => do
    let v ← read8
    return .thrs v
  | .parm => do
    let n ← read8
    let i ← readOpt read8
    let v ← read32
    return .parm n i v
  | .pget => do
    let n ← read8
    let i ← readOpt read8
    return .pget n i
  | .crvw => do
    let p ← read8
    let f ← read8
    let vs ← readList read16
    return .crvw p f vs
  | .crvr => do
    let p ← read8
    return .crvr p
  | .cntr => do
    let p ← read8
    return .cntr p
  | .clkc => do
    let a ← read8
    let v ← readOpt read32
    return .clkc a v
  | .cuea => do
    let k ← read8
    let c ← read32
    return .cuea k c
  | .cued => do
    let k ← read8
    return .cued k
  | .amod => do
    let m ← read8
    let c ← readOpt read16
    return .amod m c
  | .eopn => do
    let k ← read8
    let e ← readEdit k
    let n ← read16
    return .eopn (some e) n
  | .elin => do
    let k ← read8
    let st ← read8
    let mk ← read8
    let c ← readOpt read8
    let tx ← readList readCell
    return .elin k st mk c tx
  | .eabn => return .eabn
  | .ecmt => return .ecmt
  | .qcan => do
    let l ← read8
    let t ← read8
    return .qcan l t
  | .qfrc => do
    let l ← read8
    let t ← read8
    return .qfrc l t
  | .slck => do
    let e ← read8
    let lo ← read16
    let hi ← read16
    let c ← readFlag
    let r ← readFlag
    let st ← readFlag
    let u ← readFlag
    return .slck e lo hi c r st u
  | .tgts => do
    let n ← read16
    let v ← readOpt read32
    return .tgts n v
  | .rfsl => return .rfsl
  | .stat => do
    let k ← read8
    let i ← readOpt read8
    return .stat k i
  | .mode => do
    let m ← read8
    return .mode m
  | .save => return .save
  | .load => return .load
  | .dgld => do
    let f ← read8
    let es ← readList readPlayerArg
    let n ← read16
    return .dgld f es n
  | .dgrn => do
    let a ← read8
    let lo ← readOpt readFlag
    return .dgrn a lo
  | .nten => do
    let ps ← readList readPair
    return .nten ps

/-- The request a payload spells for a mnemonic: its fields, with no byte left over (R183). -/
def parseRequest (m : Mnem) (payload : List Byte) : Option Request :=
  match (readRequest m).run payload with
  | some (r, []) => some r
  | _ => none

/-- The frame that carries a request (R183). -/
def requestFrame (tag : Byte) (r : Request) : RequestFrame :=
  { tag := tag, mnem := r.mnem.bytes, payload := requestPayload r }

end Sys2Proof.Machine
end

