-- ==== Sys2Proof/Machine/Ops.lean ====
section
/-! DEFINITION. The named operations the commands share: access to the numbered blocks, the settings memory, notices,
responses and refusals, staging triggers and publishing, the anchor, ticks, and the outgoing lines. -/

namespace Sys2Proof.Machine

/-! ### Numbered blocks -/

/-- A hand port. -/
def State.port (s : State) (n : Fin 4) : HandPort := s.ports.get n

/-- The state with a hand port replaced. -/
def State.setPort (s : State) (n : Fin 4) (p : HandPort) : State :=
  { s with ports := s.ports.set n p }

/-- A link interface: CLI or RLI. -/
def State.link (s : State) : Link → LinkIface
  | .console => s.cli
  | .rundown => s.rli

/-- The state with a link interface replaced. -/
def State.setLink (s : State) (l : Link) (i : LinkIface) : State :=
  match l with
  | .console => { s with cli := i }
  | .rundown => { s with rli := i }

/-- A line output: LOA or LOB. -/
def State.out (s : State) : OutputId → Output
  | .a => s.loa
  | .b => s.lob

/-- The state with a line output replaced. -/
def State.setOut (s : State) (o : OutputId) (x : Output) : State :=
  match o with
  | .a => { s with loa := x }
  | .b => { s with lob := x }

/-- The edit slot of a link (R120). -/
def State.slot (s : State) : Link → EditSlot
  | .console => s.ede.consoleSlot
  | .rundown => s.ede.rundownSlot

/-- The state with a link's edit slot replaced. -/
def State.setSlot (s : State) (l : Link) (x : EditSlot) : State :=
  match l with
  | .console => { s with ede := { s.ede with consoleSlot := x } }
  | .rundown => { s with ede := { s.ede with rundownSlot := x } }

/-- The state with the commit queue replaced (R127). -/
def State.setQueue (s : State) (q : List Entry) : State :=
  { s with ede := { s.ede with queue := q } }

/-! ### The settings memory (R186) -/

/-- The byte at an address: an unlisted address reads as `Config.blankByte` (log entry 2). -/
def memRead (mem : List Host.Cell) (address : Nat) : Byte :=
  match mem.find? (fun c => c.1 = address) with
  | some c => c.2
  | none => Config.blankByte

/-- The memory with one byte written, in canonical form: addresses strictly rising, no entry equal to what an unlisted
address reads as. -/
def memWrite (mem : List Host.Cell) (address : Nat) (b : Byte) : List Host.Cell :=
  match mem with
  | [] => if b = Config.blankByte then [] else [(address, b)]
  | c :: rest =>
    if c.1 < address then c :: memWrite rest address b
    else if c.1 = address then (if b = Config.blankByte then rest else (address, b) :: rest)
    else if b = Config.blankByte then c :: rest
    else (address, b) :: c :: rest

/-- The canonical form: addresses strictly rising, and no entry equal to what an unlisted address reads as. -/
def memWf : List Host.Cell → Bool
  | [] => true
  | [c] => c.2 ≠ Config.blankByte
  | c :: d :: rest => c.2 ≠ Config.blankByte && c.1 < d.1 && memWf (d :: rest)

/-- Word i of the image: bytes 2i and 2i + 1, most significant first (R186). -/
def memWord (mem : List Host.Cell) (i : Nat) : Word16 :=
  BitVec.ofNat 16 (256 * (memRead mem (2 * i)).toNat + (memRead mem (2 * i + 1)).toNat)

/-- The memory with word i of the image written (R186). -/
def memWriteWord (mem : List Host.Cell) (i : Nat) (w : Word16) : List Host.Cell :=
  memWrite (memWrite mem (2 * i) (BitVec.ofNat 8 (w.toNat / 256))) (2 * i + 1) (BitVec.ofNat 8 w.toNat)

/-- The memory with a run of words written from word i on (R166, R186). -/
def memWriteWords (mem : List Host.Cell) (i : Nat) : List Word16 → List Host.Cell
  | [] => mem
  | w :: rest => memWriteWords (memWriteWord mem i w) (i + 1) rest

/-! ### Notices (R176, R133) -/

/-- Raise a kind on the console notice table (R176). -/
def State.raise (s : State) (k : NoticeKind) (d : NoticeDetail) : State :=
  { s with cli := { s.cli with notices := raiseIn s.cli.notices k d } }

/-- Raise a commit notice: on the console table, and on the rundown link's table too for an entry of that link (R133). -/
def State.raiseCommit (s : State) (k : NoticeKind) (link : Link) (tag : Byte) (cause : Option Cause) : State :=
  let s1 := s.raise k (.commit link tag cause)
  match link with
  | .console => s1
  | .rundown => { s1 with rli := { s1.rli with notices := raiseIn s1.rli.notices k (.commit link tag cause) } }

/-! ### Responses and refusals (R140, R174) -/

/-- A response joins the response queue of its link (R173). -/
def State.respond (s : State) (link : Link) (tag : Byte) (mnem : List Byte) (status : Status) : State :=
  let l := s.link link
  s.setLink link { l with responseQueue := l.responseQueue ++ [{ tag := tag, mnem := mnem, status := status }] }

/-- The refusal record is overwritten (R140). -/
def State.recordRefusal (s : State) (link : Link) (mnem : Mnem) (cause : Cause) (detail : Nat) : State :=
  { s with ede := { s.ede with refusal := some { link := link, mnem := mnem, cause := cause, detail := detail } } }

/-- A request refused by its owner: the record is written in the event of the refusal (R140, R174). -/
def refuse (s : State) (link : Link) (mnem : Mnem) (cause : Cause) (detail : Nat) : State × Status :=
  (s.recordRefusal link mnem cause detail, .refused cause detail)

/-! ### Staging triggers (R148, R149) -/

/-- A window row: the line at an ordinal, blank outside the script (R145). -/
def windowRow (st : Store) (ordinal : Int) : Row :=
  if ordinal < 0 then .blank
  else
    match st.lineAt? ordinal.toNat with
    | none => .blank
    | some lid =>
      match st.line? lid with
      | some { story := some story, content := some c, .. } => .line lid story c.style c.mark c.text
      | _ => .blank

/-- The rows of the window: row k shows ordinal A − E + k; every row is blank when the anchor is empty (R145). -/
def windowRows (st : Store) (anchorOrdinal : Option Nat) (rows eyeRow : Nat) : List Row :=
  match anchorOrdinal with
  | none => List.replicate rows .blank
  | some a => (List.range rows).map fun k => windowRow st ((a : Int) - eyeRow + k)

/-- The ordinal of the anchor, none when the anchor is empty (R21). -/
def State.anchorOrdinal (s : State) : Option Nat :=
  s.sce.anchor.bind s.scs.ordinal?

/-- The snapshot a staging takes at its start (R149). -/
def State.snapshot (s : State) : Frame :=
  { fraction := s.sce.fraction
    eyeRow := s.wst.eyeRow
    holder := s.aua.holder
    scroll := s.sce.state
    rows := windowRows s.scs s.anchorOrdinal s.wst.rows s.wst.eyeRow }

/-- A staging trigger: in IDLE a staging starts with its snapshot, in STAGING restage-pending is set (R148). -/
def State.trigger (s : State) : State :=
  match s.wst.buffer with
  | none => { s with wst := { s.wst with buffer := some s.snapshot } }
  | some _ => { s with wst := { s.wst with restage := true } }

/-- The scroll engine publishes where its anchor, fraction or state differs from what it was (R47). -/
def State.publishSince (s : State) (before : ScrollEngine) : State :=
  if s.sce.anchor = before.anchor ∧ s.sce.fraction = before.fraction ∧ s.sce.state = before.state then s
  else s.trigger

/-! ### The edit engine's passes (R132) -/

/-- A pass is to be made in an event that follows (R132). -/
def State.passFollows (s : State) : State :=
  { s with ede := { s.ede with passesDue := s.ede.passesDue + 1 } }

/-! ### The anchor (R22, R23) -/

/-- The current story follows an anchor change: the anchor's story with STORY_AT_EYE where it differs, none with an
empty anchor (R22). -/
def State.followStory (s : State) : State :=
  match s.sce.anchor.bind s.scs.storyOfLine? with
  | none => { s with sce := { s.sce with currentStory := none } }
  | some story =>
    if s.sce.currentStory = some story then s
    else { s with sce := { s.sce with currentStory := some story } }.raise .storyAtEye (.value story)

/-- The anchor and fraction are set. An anchor that changes line is reported to the edit engine and may change the
current story (R22, R23). -/
def State.moveAnchor (s : State) (anchor : Option Nat) (fraction : Nat) : State :=
  let s1 := { s with sce := { s.sce with anchor := anchor, fraction := fraction } }
  if anchor = s.sce.anchor then s1 else s1.followStory.passFollows

/-! ### Ticks and time (R104, R105) -/

/-- Units of time in one nominal period; the unit is 1/5,994,000 s, so that 1/50 s, 1/59.94 s, 1/60 s and 1 ms are whole
numbers of it (log entry 3). -/
def Rate.period : Rate → Nat
  | .r50 => 119880
  | .r5994 => 100000
  | .r60 => 99900

/-- The time reached: a command's instant, or the time already reached where that is later (log entry 3). -/
def State.reach (s : State) (instant : Nat) : State :=
  { s with tbp := { s.tbp with now := max s.tbp.now instant } }

/-- An output that takes frame ticks: enabled and framed as MASTER (R153). -/
def Output.takesTicks (o : Output) : Bool :=
  o.config.enable && o.config.framing = .master

/-- A tick is delivered to the blocks of R104. -/
def State.deliverTick (s : State) : State :=
  { s with due :=
    { scroll := s.due.scroll + 1
      arbiter := s.due.arbiter + 1
      ports := s.due.ports.map (· + 1)
      showTime := s.due.showTime + 1
      player := s.due.player + s.msc.player.running.toNat
      outA := s.due.outA + s.loa.takesTicks.toNat
      outB := s.due.outB + s.lob.takesTicks.toNat } }

/-- The timebase produces a tick at an instant, which becomes the last tick (R104). -/
def State.tickAt (s : State) (instant : Nat) : State :=
  { s with tbp := { s.tbp with lastTick := instant, now := max s.tbp.now instant } }.deliverTick

/-! ### The outgoing lines (R177) -/

/-- An idle line starts the next send, when there is something to send: the response at the head, else the pending enabled
entry of lowest kind (R177). -/
def LinkIface.pump (l : LinkIface) : LinkIface :=
  match l.line with
  | some _ => l
  | none =>
    match l.responseQueue with
    | r :: rest => { l with line := some r.frame, responseQueue := rest }
    | [] =>
      match l.notices.find? (fun e => e.pending && e.enabled) with
      | none => l
      | some e =>
        { l with
          line := some e.frame
          notices := l.notices.map fun x => if x.kind = e.kind then x.sent else x }

/-- At the end of an event the sends it gives cause for start on both lines, the frame chosen from all that the event
queued and raised (R177, log entry 7). -/
def State.settle (s : State) : State :=
  { s with cli := s.cli.pump, rli := s.rli.pump }

/-- The outcome of an event: the state it leaves, with the sends it started. -/
def finish (s : State) : Host.Outcome State Fault Refusal :=
  .next s.settle

end Sys2Proof.Machine
end

