-- ==== Sys2Proof/Machine/Arbiter.lean ====
section
/-! DEFINITION. The authority arbiter, AUA: eligibility and activity (R53, R54), the grant rule (R56 to R61), a change of
holder (R62) and hold-over (R59, R60). -/

namespace Sys2Proof.Machine

/-- The six sources in number order (R51). -/
def allSources : List Source :=
  [.console, .hand 0, .hand 1, .hand 2, .hand 3, .auto]

/-- A source's entry (R51). -/
def Arbiter.entry (a : Arbiter) : Source → SourceEntry
  | .console => a.console
  | .hand n => a.hand.get n
  | .auto => a.auto

/-- The arbiter with a source's entry replaced (R51). -/
def Arbiter.setEntry (a : Arbiter) (src : Source) (e : SourceEntry) : Arbiter :=
  match src with
  | .console => { a with console := e }
  | .hand n => { a with hand := a.hand.set n e }
  | .auto => { a with auto := e }

/-- A hand port carries its source's eligibility: it is LIVE, or the player drives it in DIAGNOSTIC (R53). -/
def State.portCounts (s : State) (n : Fin 4) : Bool :=
  (s.port n).state = .live || (s.msc.mode = .diagnostic && (s.port n).driven)

/-- A source is eligible (R53). -/
def State.eligible (s : State) (src : Source) : Bool :=
  (s.aua.entry src).enable && s.aua.threshold ≤ (s.aua.entry src).priority &&
    match src with
    | .hand n => s.portCounts n
    | _ => true

/-- A source is active (R54). -/
def State.active (s : State) : Source → Bool
  | .console => s.sce.manualSpeed ≠ 0
  | .hand n => (s.port n).latch.demand ≠ 0 || (s.port n).latch.claim
  | .auto => s.tbp.autoMode ≠ .off

/-- A source is eligible and active, with a priority of at least `floor`. -/
def State.candidate (s : State) (floor : Nat) (src : Source) : Bool :=
  s.eligible src && s.active src && floor ≤ (s.aua.entry src).priority

/-- The better of the best source so far and the next in number order: a candidate takes over only where its priority is
strictly higher, so that on equal priority the lowest number stays (R57). -/
def State.better (s : State) (floor : Nat) (best : Option Source) (src : Source) : Option Source :=
  if s.candidate floor src then
    match best with
    | none => some src
    | some b => if (s.aua.entry b).priority < (s.aua.entry src).priority then some src else best
  else best

/-- The candidate of highest priority, on equal priority the lowest number; none where there is no candidate (R57). -/
def State.best (s : State) (floor : Nat) : Option Source :=
  allSources.foldl (s.better floor) none

/-- What a re-evaluation gives: the holder, whether hold-over is in progress, and its count. -/
structure Grant where
  holder : Option Source
  inHoldOver : Bool
  count : Nat
deriving DecidableEq, Repr

/-- A holder with no hold-over in progress. -/
def Grant.plain (h : Option Source) : Grant := ⟨h, false, 0⟩

/-- Case 4: an eligible active holder keeps authority unless a strictly higher candidate exists (R58). -/
def State.grantActive (s : State) (h : Source) : Grant :=
  match s.best ((s.aua.entry h).priority + 1) with
  | some src => Grant.plain (some src)
  | none => Grant.plain (some h)

/-- Case 5: an eligible inactive holder keeps authority through hold-over unless a candidate of equal or higher priority
exists; the count starts at the hold-over value where hold-over was not in progress (R59). -/
def State.grantInactive (s : State) (h : Source) : Grant :=
  match s.best (s.aua.entry h).priority with
  | some src => Grant.plain (some src)
  | none => ⟨some h, true, if s.aua.inHoldOver then s.aua.count else s.aua.holdOverValue⟩

/-- The grant rule, taken from the top (R56 to R61). -/
def State.grant (s : State) : Grant :=
  if s.msc.mode.suspended then Grant.plain none
  else
    match s.aua.lock with
    | some l => Grant.plain (some l)
    | none =>
      match s.aua.holder with
      | none => Grant.plain (s.best 0)
      | some h =>
        if s.eligible h then
          if s.active h then s.grantActive h else s.grantInactive h
        else Grant.plain (s.best 0)

/-- The outcome of an arbiter event. A change of holder raises AUTHORITY_CHANGED and the scroll engine publishes (R62,
R48). -/
def State.takeGrant (s : State) (g : Grant) : State :=
  let s1 := { s with aua := { s.aua with holder := g.holder, inHoldOver := g.inHoldOver, count := g.count } }
  if g.holder = s.aua.holder then s1
  else (s1.raise .authorityChanged (.holder g.holder)).trigger

/-- The holder is re-evaluated by the grant rule (R55). -/
def State.regrant (s : State) : State := s.takeGrant s.grant

/-- The arbiter's tick event while hold-over is in progress: the count falls by 1 when above 0; at 0 hold-over has
expired, the holder is released and case 3 chooses again in the same event (R60). -/
def State.holdOverTick (s : State) : State :=
  if s.aua.count ≤ 1 then s.takeGrant (Grant.plain (s.best 0))
  else { s with aua := { s.aua with count := s.aua.count - 1 } }

/-- What decides a hand source's eligibility and activity at its port: LIVE, driven, demand not 0, CLAIM (R55). -/
def HandPort.inputs (p : HandPort) : Bool × Bool × Bool × Bool :=
  (p.state = .live, p.driven, p.latch.demand ≠ 0, p.latch.claim)

/-- A hand port is replaced, and the receiver reports to the arbiter once where what decides its source has changed (R55,
R77, R82). -/
def State.changePort (s : State) (n : Fin 4) (p : HandPort) : State :=
  if p.inputs = (s.port n).inputs then s.setPort n p else (s.setPort n p).regrant

end Sys2Proof.Machine
end

