-- ==== Sys2Proof/Machine/Authority.lean ====
section
/-! DEFINITION. The arbiter's tick and its requests: the meanings of ARBITER_TICK and HOLD_OVER_EXPIRY (R60), and what LOCK,
FREE, SRCS and THRS do at the arbiter (R64 to R67). -/

namespace Sys2Proof.Machine

/-- One tick delivered to the arbiter is taken (R104). -/
def State.arbiterTickTaken (s : State) : State :=
  { s with due := { s.due with arbiter := s.due.arbiter - 1 } }

/-- ARBITER_TICK (R60): the arbiter's own tick event, the expiry included; outside hold-over it changes nothing there. -/
def execArbiterTick (s : State) : Host.Outcome State Fault Refusal :=
  if s.aua.inHoldOver then finish s.arbiterTickTaken.holdOverTick else finish s.arbiterTickTaken

/-- HOLD_OVER_EXPIRY (R60): the tick event at which the count reaches 0; where this tick does not end the hold-over, none
expires and nothing changes (log entry 5). -/
def execHoldOverExpiry (s : State) : Host.Outcome State Fault Refusal :=
  if s.aua.inHoldOver ∧ s.aua.count ≤ 1 then finish s.arbiterTickTaken.holdOverTick else finish s

/-- The lock set (R64) or ended (R65), with the grant re-evaluated in the same event (R55). -/
def State.setLock (s : State) (l : Option Source) : State :=
  { s with aua := { s.aua with lock := l } }.regrant

/-- LOCK (R64): the data are the lock and the holder. -/
def doLock (source : Nat) (s : State) : State × Status :=
  match sourceOfNumber? source with
  | none => (s, .badRequest)
  | some src =>
    let s1 := s.setLock (some src)
    (s1, .ok (u8 (holderCode s1.aua.lock) ++ u8 (holderCode s1.aua.holder)))

/-- FREE (R65): the data are the holder. -/
def doFree (s : State) : State × Status :=
  (s.setLock none, .ok (u8 (holderCode (s.setLock none).aua.holder)))

/-- A source entry written, with the grant re-evaluated in the same event (R55, R66). -/
def State.setSource (s : State) (src : Source) (e : SourceEntry) : State :=
  { s with aua := s.aua.setEntry src e }.regrant

/-- SRCS (R66): a priority above 15 is taken as 15; the data are the enable and priority taken and the holder. -/
def doSrcs (source : Nat) (enable : Bool) (priority : Nat) (s : State) : State × Status :=
  match sourceOfNumber? source with
  | none => (s, .badRequest)
  | some src =>
    let s1 := s.setSource src { enable := enable, priority := min priority 15 }
    (s1, .ok (flag enable ++ u8 (min priority 15) ++ u8 (holderCode s1.aua.holder)))

/-- The threshold written, with the grant re-evaluated in the same event (R55, R67). -/
def State.setThreshold (s : State) (v : Nat) : State :=
  { s with aua := { s.aua with threshold := v } }.regrant

/-- THRS (R67): a value above 15 is taken as 15; the data are the threshold taken and the holder. -/
def doThrs (value : Nat) (s : State) : State × Status :=
  let s1 := s.setThreshold (min value 15)
  (s1, .ok (u8 (min value 15) ++ u8 (holderCode s1.aua.holder)))

end Sys2Proof.Machine
end

