-- ==== Sys2Proof/Machine/Shaper.lean ====
section
/-! DEFINITION. The demand shaper, DSH: the demand of a deflection (R92 to R98). -/

namespace Sys2Proof.Machine

/-- The offset of a deflection from the centre; a pedal's negative offset is taken as 0 (R94). -/
def shapeOffset (p : Shaping) (kind : UnitKind) (deflection : Nat) : Int :=
  let e := (deflection : Int) - p.centre
  if kind = .pedal then max e 0 else e

/-- The point P[k] of a curve (R90). -/
def curvePoint (p : Shaping) (k : Nat) : Nat := p.curve.getD k 0

/-- The magnitude for an excess: P[32] from 2048 on, else interpolated within its segment, the signed product divided by
64 with truncation toward zero (R95, R96). -/
def shapeMagnitude (p : Shaping) (excess : Nat) : Int :=
  if 2048 ≤ excess then curvePoint p 32
  else
    let i := excess / 64
    let f := excess % 64
    let delta := (curvePoint p (i + 1) : Int) - curvePoint p i
    curvePoint p i + Int.tdiv (delta * f) 64

/-- The demand for a deflection of a unit kind: 0 within the dead-band, else the magnitude with the sign of the offset,
inverted when the reverse flag is on (R94, R97). -/
def shape (p : Shaping) (kind : UnitKind) (deflection : Nat) : Int :=
  let e := shapeOffset p kind deflection
  if e.natAbs ≤ p.deadband then 0
  else
    let m := shapeMagnitude p (e.natAbs - p.deadband)
    if 0 < e ↔ p.reverse = false then m else -m

end Sys2Proof.Machine
end

