-- ==== Sys2Proof/Machine/Curves.lean ====
section
/-! DEFINITION. The demand shaper's requests: what CRVW, CRVR and CNTR do (R99 to R102), and the writes of its fields
(R91). -/

namespace Sys2Proof.Machine

/-- A port's shaping parameters written; the latch keeps the demand it holds (R99). -/
def State.setShaping (s : State) (n : Fin 4) (p : Shaping) : State :=
  { s with dsh := s.dsh.set n p }

/-- A curve with a run of points replaced, the others kept (R100). -/
def writePoints (curve : List Nat) (first : Nat) (values : List Nat) : List Nat :=
  curve.take first ++ values ++ curve.drop (first + values.length)

/-- A value of a curve point as taken (R100). -/
def pointTaken (v : Nat) : Nat := min v Config.speedMax

/-- The index tests of CRVW: the first index in 0..32, a list that is not empty and does not run past P[32] (R100). -/
def runOk (first count : Nat) : Bool := first ≤ 32 && 1 ≤ count && first + count ≤ 33

/-- CRVW (R100): the data are the port, the first index and the values as taken. -/
def doCrvw (port first : Nat) (values : List Nat) (s : State) : State × Status :=
  match portOf? port with
  | none => (s, .badRequest)
  | some n =>
    if !runOk first values.length then (s, .badRequest)
    else if s.msc.mode = .onAir then (s, .notPermitted)
    else
      let taken := values.map pointTaken
      (s.setShaping n { s.dsh.get n with curve := writePoints (s.dsh.get n).curve first taken },
        .ok (u8 port ++ u8 first ++ listOf u16 taken))

/-- CRVR (R101): the data are the port and the 33 points, with no count byte (log entry 13). -/
def doCrvr (port : Nat) (s : State) : State × Status :=
  match portOf? port with
  | none => (s, .badRequest)
  | some n => (s, .ok (u8 port ++ (List.range 33).flatMap (fun k => u16 (curvePoint (s.dsh.get n) k))))

/-- CNTR (R102): the centre becomes the deflection in the port's sample latch; NO_SAMPLE where there is none. -/
def doCntr (link : Link) (port : Nat) (s : State) : State × Status :=
  match portOf? port with
  | none => (s, .badRequest)
  | some n =>
    if s.msc.mode = .onAir then (s, .notPermitted)
    else
      match (s.port n).latch.deflection with
      | none => refuse s link .cntr .noSample port
      | some d => (s.setShaping n { s.dsh.get n with centre := d }, .ok (u16 d))

end Sys2Proof.Machine
end

