-- ==== Sys2Proof/Machine/Scroll.lean ====
section
/-! DEFINITION. The scroll engine, SCE: the frame step (R26 to R35), jumps (R41, R42), the position across edits (R43 to
R45), the auto demand it asks for (R117), and the requests FRZE, THAW, RELS, MSPD, JUMP; with the meaning of SCROLL_STEP. -/

namespace Sys2Proof.Machine

/-! ### The auto demand (R117) -/

/-- The paced demand for a remainder R and a time left F: the pace maximum when F ≤ 0, else R / F rounded up, raised to
the pace minimum and lowered to the pace maximum (R117). -/
def pacedDemand (paceMin paceMax remainder : Nat) (timeLeft : Int) : Nat :=
  if timeLeft ≤ 0 then paceMax
  else min (max ((remainder + timeLeft.toNat - 1) / timeLeft.toNat) paceMin) paceMax

/-- The paced demand of a story with a target out, from the position p and the clock (R117). -/
def State.storyDemand (s : State) (p : Nat) (story : Story) (target : Nat) : Nat :=
  pacedDemand s.tbp.paceMin s.tbp.paceMax ((s.scs.storyEnd? story).getD 0 - p) ((target : Int) - s.tbp.clock)

/-- The auto demand at a position (R117). -/
def State.autoDemand (s : State) (p : Nat) : Nat :=
  match s.tbp.autoMode with
  | .off => 0
  | .constant => s.tbp.constant
  | .pace =>
    match s.sce.currentStory.bind s.scs.story? with
    | some story =>
      match story.target with
      | some target => s.storyDemand p story target
      | none => s.tbp.constant
    | none => s.tbp.constant

/-! ### Target and slew (R28, R29) -/

/-- The demand of a hand port as a target: 0 when the port is not LIVE, except while the player drives it in DIAGNOSTIC
(R28). -/
def State.handTarget (s : State) (n : Fin 4) : Int :=
  if s.portCounts n then (s.port n).latch.demand else 0

/-- The target T at a step with the position at p (R28). -/
def State.target (s : State) (p : Nat) : Int :=
  if s.msc.mode.suspended then 0
  else
    match s.aua.holder with
    | none => 0
    | some .console => s.sce.manualSpeed
    | some (.hand n) => s.handTarget n
    | some .auto => s.autoDemand p

/-- v moved toward T by at most `limit` (R29, cases 2 and 3). -/
def toward (v target : Int) (limit : Nat) : Int :=
  if (target - v).natAbs ≤ limit then target
  else if v < target then v + limit
  else v - limit

/-- The slew rule with acceleration a and deceleration b (R29). -/
def slew (v target : Int) (a b : Nat) : Int :=
  if (0 < v ∧ target < 0) ∨ (v < 0 ∧ 0 < target) then toward v 0 b
  else if target.natAbs < v.natAbs then toward v target b
  else toward v target a

/-! ### Integration (R30 to R34) -/

/-- Where a step's integration comes to rest. `stop` is the position reached. -/
structure Landing where
  lid : Nat
  fraction : Nat
  velocity : Int
  held : Bool
  stop : Nat
deriving DecidableEq, Repr

/-- The in-use lines whose tops lie in (p, q], in increasing order, each with its top (R9, R30). -/
def Store.topsIn (st : Store) (p q : Nat) : List (Nat × Nat) :=
  (List.range (q / Config.unitsPerLine - p / Config.unitsPerLine)).filterMap fun k =>
    let o := p / Config.unitsPerLine + 1 + k
    (st.lineAt? o).map (fun lid => (topOf o, lid))

/-- The landing on a position within the script: the line at its ordinal, and the fraction (R30). -/
def Store.landAt (st : Store) (q : Nat) (v : Int) : Option Landing :=
  (st.lineAt? (q / Config.unitsPerLine)).map fun lid =>
    { lid := lid, fraction := q % Config.unitsPerLine, velocity := v, held := false, stop := q }

/-- A forward step from p by v: the hold catch, else the end clamp, else p + v (R30, R31, R32). -/
def Store.landForward (st : Store) (p v : Nat) : Option Landing :=
  match (st.topsIn p (p + v)).find? (fun t => st.markOf t.2 = .hold) with
  | some t => some { lid := t.2, fraction := 0, velocity := 0, held := true, stop := t.1 }
  | none =>
    if st.endPosition < p + v then st.landAt st.endPosition 0
    else st.landAt (p + v) v

/-- A backward step from p by |v|: the top clamp, else p + v (R34). -/
def Store.landBackward (st : Store) (p : Nat) (v : Int) : Option Landing :=
  if (p : Int) + v < 0 then st.landAt 0 0
  else st.landAt ((p : Int) + v).toNat v

/-- The cue number of the last CUE-marked line whose top lies in (p, s] (R33). -/
def Store.lastCue? (st : Store) (p stop : Nat) : Option Nat :=
  ((st.topsIn p stop).filterMap (fun t => (st.markOf t.2).cue?)).getLast?

/-- CUE_LINE for the CUE tops a forward step crossed up to its stopping point (R33). -/
def State.reportCues (s : State) (p stop : Nat) : State :=
  match s.scs.lastCue? p stop with
  | some n => s.raise .cueLine (.value n)
  | none => s

/-- The engine takes a landing: anchor, fraction and velocity, and HELD with HELD_AT_MARK at a hold catch (R30, R31). -/
def State.takeLanding (s : State) (l : Landing) : State :=
  let s1 := s.moveAnchor (some l.lid) l.fraction
  let s2 := { s1 with sce := { s1.sce with velocity := l.velocity } }
  if l.held then { s2 with sce := { s2.sce with state := .held } }.raise .heldAtMark (.value l.lid)
  else s2

/-- The velocity set. -/
def State.setVelocity (s : State) (v : Int) : State :=
  { s with sce := { s.sce with velocity := v } }

/-- The slewed v integrated into the position p (R30); a v of 0 leaves the position as it is. -/
def State.integrate (s : State) (p : Nat) (v : Int) : State :=
  if 0 < v then
    match s.scs.landForward p v.toNat with
    | some l => (s.takeLanding l).reportCues p l.stop
    | none => s.setVelocity 0
  else if v < 0 then
    match s.scs.landBackward p v with
    | some l => s.takeLanding l
    | none => s.setVelocity 0
  else s.setVelocity 0

/-- Step 5: target, slew, integration (R26). -/
def State.drive (s : State) (p : Nat) : State :=
  s.integrate p (slew s.sce.velocity (s.target p) s.sce.accel s.sce.decel)

/-! ### Jumps (R41, R42) -/

/-- The line a STORY target resolves to: the story's first line; for an empty story the first line after its place, else the
last line in reading order; none when the story has left the rundown (R41). -/
def Store.resolveStory (st : Store) (number : Nat) : Option Nat :=
  match st.story? number with
  | none => none
  | some story =>
    match story.lines.head? with
    | some lid => some lid
    | none =>
      match st.firstLineAfter? (st.storyIndex number) with
      | some lid => some lid
      | none => st.order.getLast?

/-- The line NEXT resolves to from the current story (R41). -/
def Store.resolveNext (st : Store) (current : Nat) : Option Nat :=
  match st.firstLineAfter? (st.storyIndex current) with
  | some lid => some lid
  | none => st.order.getLast?

/-- The line PREV resolves to from the current story (R41). -/
def Store.resolvePrev (st : Store) (current : Nat) : Option Nat :=
  match st.firstLineOfPrevStory? (st.storyIndex current) with
  | some lid => some lid
  | none => (st.story? current).bind (·.lines.head?)

/-- The line a jump target resolves to, from the script as it stands; none where it cannot be resolved (R41). -/
def State.resolve (s : State) : JumpTarget → Option Nat
  | .top => s.scs.lineAt? 0
  | .story n => s.scs.resolveStory n
  | .next => s.sce.currentStory.bind s.scs.resolveNext
  | .prev => s.sce.currentStory.bind s.scs.resolvePrev
  | .line lid => (s.scs.line? lid).map (·.lid)

/-- The state after a jump applied: HELD becomes RUNNING, the others are kept (R42). -/
def ScrollState.afterJump : ScrollState → ScrollState
  | .held => .running
  | st => st

/-- A pending jump applied: the slot is emptied and the anchor moves to the target at fraction 0 with v 0, or the jump is
discarded with JUMP_DISCARDED (R42). -/
def State.applyJump (s : State) (t : JumpTarget) : State :=
  let s1 := { s with sce := { s.sce with pendingJump := none } }
  match s.resolve t with
  | none => s1.raise .jumpDiscarded (.jump t)
  | some lid =>
    let s2 := s1.moveAnchor (some lid) 0
    { s2 with sce := { s2.sce with velocity := 0, state := s2.sce.state.afterJump } }

/-! ### Buttons (R27) -/

/-- HOLD_TOGGLE or FRZE: RUNNING or HELD becomes FROZEN with v 0, FROZEN becomes RUNNING (R27, R37). -/
def ScrollEngine.toggleFreeze (e : ScrollEngine) : ScrollEngine :=
  match e.state with
  | .frozen => { e with state := .running }
  | _ => { e with state := .frozen, velocity := 0 }

/-- GO or RELS: HELD becomes RUNNING (R27, R39). -/
def ScrollEngine.release (e : ScrollEngine) : ScrollEngine :=
  match e.state with
  | .held => { e with state := .running }
  | _ => e

/-- THAW: FROZEN becomes RUNNING (R38). -/
def ScrollEngine.thaw (e : ScrollEngine) : ScrollEngine :=
  match e.state with
  | .frozen => { e with state := .running }
  | _ => e

/-- The jump the buttons place: NEXT before PREV; neither leaves the slot as it is (R27). -/
def buttonJump (b : Edges) (slot : Option JumpTarget) : Option JumpTarget :=
  if b.next then some .next else if b.prev then some .prev else slot

/-- The holder's latches acted on, in the order HOLD_TOGGLE, GO, NEXT or PREV (R27). -/
def ScrollEngine.press (e : ScrollEngine) (b : Edges) : ScrollEngine :=
  let e1 := if b.holdToggle then e.toggleFreeze else e
  let e2 := if b.go then e1.release else e1
  { e2 with pendingJump := buttonJump b e2.pendingJump }

/-- The pending latches of the holder's port; none for any other holder (R27). -/
def State.holderButtons (s : State) : Edges :=
  match s.aua.holder with
  | some (.hand n) => (s.port n).buttons
  | _ => Edges.none

/-- Every port's button latches are emptied, and the holder's are acted on (R27). -/
def State.takeButtons (s : State) : State :=
  { s with
    sce := s.sce.press s.holderButtons
    ports := s.ports.map (fun p => { p with buttons := Edges.none }) }

/-! ### The step (R26) -/

/-- The absolute position p, none when the anchor is empty (R21). -/
def State.position? (s : State) : Option Nat :=
  s.anchorOrdinal.map (fun o => topOf o + s.sce.fraction)

/-- v is held at 0 and the position stays: the state is FROZEN or HELD, or the mode is SETUP or LOADING (R24, R26 step 4). -/
def State.heldStill (s : State) : Bool :=
  s.sce.state ≠ .running || s.msc.mode.suspended

/-- Steps 3 to 5: the pending jump, else the rest, else the movement (R26). -/
def State.stepMove (s : State) : State :=
  match s.sce.pendingJump with
  | some t => s.applyJump t
  | none =>
    match s.position? with
    | none => s.setVelocity 0
    | some p => if s.heldStill then s.setVelocity 0 else s.drive p

/-- The frame step (R26). -/
def State.scrollStep (s : State) : State :=
  s.takeButtons.stepMove.publishSince s.sce

/-- One tick delivered to the scroll engine is taken (R104). -/
def State.scrollTickTaken (s : State) : State :=
  { s with due := { s.due with scroll := s.due.scroll - 1 } }

/-- SCROLL_STEP (R26): the engine's own event at a frame tick (log entry 4). -/
def execScrollStep (s : State) : Host.Outcome State Fault Refusal :=
  finish s.scrollTickTaken.scrollStep

/-! ### The position across edits (R43 to R45) -/

/-- The new anchor when an apply freed the anchor line: the first replacement line, else the line after, else the line
before, else none (R43). -/
def ContentReport.newAnchor (r : ContentReport) : Option Nat :=
  match (if r.replaced then r.firstNew else none) with
  | some lid => some lid
  | none =>
    match r.after with
    | some lid => some lid
    | none => r.before

/-- An anchor line among the removed lines is replaced, at fraction 0; with no line left v becomes 0 (R43). -/
def State.relocate (s : State) (r : ContentReport) : State :=
  match s.sce.anchor with
  | some lid =>
    if r.removed.contains lid then
      let s1 := s.moveAnchor r.newAnchor 0
      if r.newAnchor.isNone then s1.setVelocity 0 else s1
    else s
  | none => s

/-- An anchor that names the last line in reading order has fraction 0 (R44). -/
def State.endTest (s : State) : State :=
  if s.sce.anchor.isSome ∧ s.sce.anchor = s.scs.order.getLast? then { s with sce := { s.sce with fraction := 0 } }
  else s

/-- A script that goes from empty to not empty gives the line at ordinal 0 as the anchor (R45). -/
def State.firstAnchor (s : State) (r : ContentReport) : State :=
  if r.wasEmpty && !r.nowEmpty then s.moveAnchor (s.scs.lineAt? 0) 0 else s

/-- The engine takes an apply's report within the apply event, and publishes where its position changed; the report itself
is a staging trigger too (R16, R43 to R45, R47, R148). -/
def State.takeApply (s : State) (r : ContentReport) : State :=
  (((s.relocate r).endTest.firstAnchor r).trigger).publishSince s.sce

/-! ### CLEAR SHOW (R50) -/

/-- The scroll engine's values after CLEAR SHOW (R50). -/
def ScrollEngine.clearShow (e : ScrollEngine) : ScrollEngine :=
  { e with
    anchor := none
    fraction := 0
    velocity := 0
    state := .running
    pendingJump := none
    manualSpeed := 0
    currentStory := none }

/-- The pass an anchor change starts, where the anchor was not already empty (R23, R50). -/
def State.anchorEmptied (s : State) (before : ScrollEngine) : State :=
  if before.anchor.isSome then s.passFollows else s

/-- The arbiter's re-evaluation where the manual speed was not 0 (R36, R50, R69). -/
def State.consoleStopped (s : State) (before : ScrollEngine) : State :=
  if before.manualSpeed = 0 then s else s.regrant

/-- The engine takes its clear values on the report of a CLEAR SHOW; the report and the engine's publish are staging
triggers, and a CONSOLE that was active is told to the arbiter (R19, R50, R151, log entry 11). -/
def State.takeClear (s : State) : State :=
  let s1 := { s with sce := s.sce.clearShow }
  (((s1.anchorEmptied s.sce).trigger).publishSince s.sce).consoleStopped s.sce

/-- The scroll engine and the stager take a content-changed report (R16). -/
def State.takeReport (s : State) (r : ContentReport) : State :=
  match r.cause with
  | .cleared => s.takeClear
  | .kind _ => s.takeApply r

/-! ### Requests (R36 to R40) -/

/-- MSPD: the manual speed is clamped and taken; a change between zero and non-zero is told to the arbiter (R36). -/
def State.setManualSpeed (s : State) (v : Int) : State :=
  let s1 := { s with sce := { s.sce with manualSpeed := v } }
  if v = 0 ↔ s.sce.manualSpeed = 0 then s1 else s1.regrant

/-- MSPD (R36). -/
def doMspd (speed : Int) (s : State) : State × Status :=
  (s.setManualSpeed (clampSpeed speed), .ok (i16 (clampSpeed speed)))

/-- The engine takes a change of its state, publishes it, and answers with the state taken (R37 to R39). -/
def State.changeScroll (s : State) (e : ScrollEngine) : State × Status :=
  ({ s with sce := e }.publishSince s.sce, .ok (u8 e.state.code))

/-- FRZE (R37). -/
def doFrze (s : State) : State × Status := s.changeScroll s.sce.toggleFreeze

/-- THAW (R38). -/
def doThaw (s : State) : State × Status := s.changeScroll s.sce.thaw

/-- RELS (R39). -/
def doRels (s : State) : State × Status := s.changeScroll s.sce.release

/-- The jump target of a kind code and parameter; none for a kind outside the set (R40, R174). A story number or LID outside
its range names nothing, and is refused like one in range that names nothing (log entry 8). -/
def jumpTarget? (kind param : Nat) : Option JumpTarget :=
  match kind with
  | 0 => some .top
  | 1 => some (.story param)
  | 2 => some .next
  | 3 => some .prev
  | 4 => some (.line param)
  | _ => none

/-- The check of a target at the request: the story is in the rundown, the LID names an in-use line (R40). -/
def Store.targetKnown (st : Store) : JumpTarget → Bool
  | .story n => (st.story? n).isSome
  | .line lid => (st.line? lid).isSome
  | _ => true

/-- JUMP: an accepted jump is placed in the pending-jump slot (R40). -/
def doJump (link : Link) (kind param : Nat) (s : State) : State × Status :=
  match jumpTarget? kind param with
  | none => (s, .badRequest)
  | some t =>
    if s.scs.targetKnown t then ({ s with sce := { s.sce with pendingJump := some t } }, .ok [])
    else refuse s link .jump .unknownTarget t.param

end Sys2Proof.Machine
end

