-- ==== Sys2Proof/Machine/Edit.lean ====
section
/-! DEFINITION. The edit engine, EDE: edit slots and pages (R120 to R123), the commit and its checks (R124 to R126), the
queue's evaluation (R127 to R133), cancel and force (R134, R135), story locks (R137, R138), story targets (R139) and the
refusal record (R140); with the meanings of COPY_COMPLETION and QUEUE_PASS. -/

namespace Sys2Proof.Machine

/-! ### Edit slots and pages (R120 to R123) -/

/-- A fresh page: all 64 page slots unwritten (R121). -/
def freshPage : Page := List.replicate Config.pageSlots none

/-- A story number in its range (R121). -/
def storyInRange (n : Nat) : Bool := 1 ≤ n && n ≤ 65535

/-- A LID in its range (R121). -/
def lidInRange (n : Nat) : Bool := 1 ≤ n && n ≤ Config.lidMax

/-- An optional after-LID or after-story in its range. -/
def optInRange (r : Nat → Bool) : Option Nat → Bool
  | none => true
  | some n => r n

/-- The numbers of an edit lie in their ranges (R121). -/
def editInRange : EditParams → Bool
  | .linesReplace s f l => storyInRange s && lidInRange f && lidInRange l
  | .linesInsert s a => storyInRange s && optInRange lidInRange a
  | .storyInsert s a _ _ => storyInRange s && optInRange storyInRange a
  | .storyDrop s => storyInRange s
  | .storyMove s a => storyInRange s && optInRange storyInRange a

/-- The page line count lies in the range for the kind (R121). -/
def countInRange (e : EditParams) (n : Nat) : Bool :=
  match e with
  | .linesReplace .. => n ≤ 64
  | .linesInsert .. => 1 ≤ n && n ≤ 64
  | .storyInsert .. => n ≤ 64
  | .storyDrop _ => n = 0
  | .storyMove .. => n = 0

/-- The edit as taken: a slug longer than 16 cells is its first 16 (R121). -/
def takenEdit : EditParams → EditParams
  | .storyInsert s a slug t => .storyInsert s a (slug.map (·.take Config.slugCells)) t
  | e => e

/-- EOPN (R121). -/
def doEopn (link : Link) (edit : Option EditParams) (n : Nat) (s : State) : State × Status :=
  match edit with
  | none => (s, .badRequest)
  | some e =>
    if editInRange e && countInRange e n then
      match s.slot link with
      | .copying .. => (s, .busy)
      | _ => (s.setSlot link (.opened (takenEdit e) n freshPage), .ok (u8 e.code ++ u16 n))
    else (s, .badRequest)

/-- The mark of a code with a cue number; CUE needs a cue number in 0..255, and a cue number with another mark is not kept;
none for an unknown mark (R122). -/
def markOf? (code : Nat) (cue : Option Nat) : Option Mark :=
  match code, cue with
  | 0, _ => some Mark.none
  | 1, _ => some .hold
  | 2, some n => if n ≤ 255 then some (.cue n) else none
  | _, _ => none

/-- The content of a written page slot; none for an unknown style or mark (R122). -/
def contentOf? (style mark : Nat) (cue : Option Nat) (text : List CharCell) : Option LineContent :=
  match styleOfCode? style, markOf? mark cue with
  | some st, some m => some { style := st, mark := m, text := text.take Config.textCells }
  | _, _ => none

/-- ELIN (R122): NO_EDIT comes before the tests of the fields; a payload that spells no ELIN does not come here (log entry
32). -/
def doElin (link : Link) (k style mark : Nat) (cue : Option Nat) (text : List CharCell) (s : State) : State × Status :=
  match s.slot link with
  | .opened e n page =>
    match contentOf? style mark cue text with
    | some c =>
      if k < n then (s.setSlot link (.opened e n (page.set k (some c))), .ok (u8 k ++ u8 c.text.length))
      else (s, .badRequest)
    | none => (s, .badRequest)
  | _ => refuse s link .elin .noEdit k

/-- EABN (R123). -/
def doEabn (link : Link) (s : State) : State × Status :=
  match s.slot link with
  | .opened .. => (s.setSlot link .closed, .ok [])
  | .closed => (s, .ok [])
  | .copying .. => (s, .busy)

/-! ### Checks (R124, R125, R137) -/

/-- A failed check: its cause and detail. -/
abbrev Failure := Cause × Nat

/-- A failure where a condition does not hold. -/
def failUnless (ok : Bool) (cause : Cause) (detail : Nat) : Option Failure :=
  if ok then none else some (cause, detail)

/-- The span of a LINES_REPLACE is sound in a story's line list: first and last are in it and the first is not after the
last (R125). -/
def spanCheck (lines : List Nat) (first last : Nat) : Option Failure :=
  if !lines.contains first then some (.badSpan, first)
  else failUnless (lines.contains last && lines.idxOf first ≤ lines.idxOf last) .badSpan last

/-- A story of the rundown is named, else UNKNOWN_STORY (R125). -/
def Store.storyCheck (st : Store) (n : Nat) : Option Failure :=
  failUnless (st.story? n).isSome .unknownStory n

/-- An after-story, when given, is in the rundown, else UNKNOWN_STORY (R125). -/
def Store.afterCheck (st : Store) : Option Nat → Option Failure
  | none => none
  | some a => st.storyCheck a

/-- The structural checks of an edit, in order (R125). -/
def Store.structural (st : Store) : EditParams → Option Failure
  | .linesReplace s f l =>
    match st.story? s with
    | none => some (.unknownStory, s)
    | some story => spanCheck story.lines f l
  | .linesInsert s a =>
    match st.story? s with
    | none => some (.unknownStory, s)
    | some story =>
      match a with
      | none => none
      | some lid => failUnless (story.lines.contains lid) .badSpan lid
  | .storyInsert s a _ _ => (failUnless (st.story? s).isNone .storyExists s).or (st.afterCheck a)
  | .storyDrop s => st.storyCheck s
  | .storyMove s a => ((st.storyCheck s).or (st.afterCheck a)).or (failUnless (a ≠ some s) .badSpan s)

/-- The number of lines of a story. -/
def Store.linesIn (st : Store) (n : Nat) : Nat :=
  match st.story? n with
  | some story => story.lines.length
  | none => 0

/-- The limit check of an edit with n page lines (R125). -/
def Store.limit (st : Store) (e : EditParams) (n : Nat) : Option Failure :=
  match e with
  | .linesReplace s .. =>
    failUnless (st.linesIn s - (st.removedBy e).length + n ≤ Config.storyLinesMax) .storyFull s
  | .linesInsert s _ => failUnless (st.linesIn s + n ≤ Config.storyLinesMax) .storyFull s
  | .storyInsert s .. => failUnless (st.rundown.length < Config.storiesMax) .rundownFull s
  | _ => none

/-- The lock check of an edit for a link (R137). -/
def EditEngine.lockCheck (ed : EditEngine) (link : Link) (e : EditParams) : Option Failure :=
  failUnless (!ed.lockedFor link (editStory e)) .locked (editStory e)

/-- The checks an entry passes again at an evaluation and at QFRC: structural, lock, limit (R131 step 2). -/
def State.entryChecks (s : State) (link : Link) (e : EditParams) (n : Nat) : Option Failure :=
  ((s.scs.structural e).or (s.ede.lockCheck link e)).or (s.scs.limit e n)

/-- The lowest unwritten page slot below n (R124 check 2). -/
def lowestUnwritten? (page : Page) (n : Nat) : Option Nat :=
  (List.range n).find? (fun k => (page.getD k none).isNone)

/-- The checks of an ECMT before the reservation, in order, on an open edit (R124 checks 2 to 7). -/
def State.commitChecks (s : State) (link : Link) (tag : Byte) (e : EditParams) (n : Nat) (page : Page) :
    Option Failure :=
  ((((lowestUnwritten? page n).map (fun k => (Cause.incomplete, k))).or
    (failUnless (s.ede.queue.length < Config.commitQueueMax) .queueFull tag.toNat)).or
    (failUnless (!s.ede.queue.any (fun q => q.link = link && q.tag = tag)) .duplicateTag tag.toNat)).or
    (s.entryChecks link e n)

/-- The data of an OK to ECMT: the tag, the place in the queue, and the reserved LIDs as first LID and count (R126). The
presence byte before the first LID and the one byte of the count are the model's choice (log entry 13). -/
def commitData (tag : Byte) (place : Nat) (lids : List Nat) : List Byte :=
  [tag] ++ u8 place ++ opt u24 lids.head? ++ u8 lids.length

/-- The queue entry an accepted ECMT makes (R126). -/
def newEntry (link : Link) (tag : Byte) (e : EditParams) (lids : List Nat) : Entry :=
  { link := link, tag := tag, edit := e, lids := lids, state := .copying, cancelMarked := false, deferredSent := false }

/-- An accepted ECMT: the entry at the queue's tail, the slot COPYING (R126). -/
def State.acceptCommit (s : State) (link : Link) (tag : Byte) (e : EditParams) (n : Nat) (page : Page)
    (st : Store) (lids : List Nat) : State :=
  ({ s with scs := st }.setQueue (s.ede.queue ++ [newEntry link tag e lids])).setSlot link (.copying e n page)

/-! ### Affected span and guard window (R129, R130) -/

/-- The lines on either side of an insertion point of a rundown (R129). -/
def insertionNeighbours (rundown : List Story) (after : Option Nat) : List Nat :=
  let parts := splitAfter rundown after
  ((parts.1.flatMap (·.lines)).getLast?).toList ++ ((parts.2.flatMap (·.lines)).head?).toList

/-- The lines of a story. -/
def Store.linesOf (st : Store) (n : Nat) : List Nat :=
  match st.story? n with
  | some story => story.lines
  | none => []

/-- The affected span of a LINES_INSERT: the after-line and the line that follows it in reading order, or the story's first
line (R129). -/
def Store.insertSpan (st : Store) (s : Nat) : Option Nat → List Nat
  | some a => a :: (st.lineAfter? [a]).toList
  | none => ((st.linesOf s).head?).toList

/-- The affected span of an edit: existing lines that it takes away or lands between (R129). -/
def Store.affectedSpan (st : Store) : EditParams → List Nat
  | .linesReplace s f l => st.removedBy (.linesReplace s f l)
  | .linesInsert s a => st.insertSpan s a
  | .storyInsert _ a _ _ => insertionNeighbours st.rundown a
  | .storyDrop s => st.linesOf s
  | .storyMove s a => st.linesOf s ++ insertionNeighbours (withoutStory st.rundown s) a

/-- An ordinal lies in the guard window of an anchor at an ordinal (R130); the clipping to 0..L − 1 leaves out no line. -/
def inGuard (ed : EditEngine) (anchor ordinal : Nat) : Bool :=
  anchor ≤ ordinal + ed.guardAbove && ordinal ≤ anchor + ed.guardBelow

/-- An edit's affected span meets the guard window, which is empty when the anchor is empty (R130). -/
def State.meetsGuard (s : State) (e : EditParams) : Bool :=
  match s.anchorOrdinal with
  | none => false
  | some a =>
    (s.scs.affectedSpan e).any fun lid =>
      match s.scs.ordinal? lid with
      | some o => inGuard s.ede a o
      | none => false

/-! ### Apply and removal (R4, R10, R133) -/

/-- The apply of an entry that has left the queue: the store's change, COMMIT_DONE, the report to the engine and the
stager; the removal starts a pass (R10, R132). -/
def State.applyEntry (s : State) (e : Entry) : State :=
  let s1 := { s with scs := s.scs.applied e.edit e.lids }
  ((s1.raiseCommit .commitDone e.link e.tag none).takeReport (s.scs.report e.edit e.lids)).passFollows

/-- An entry that has left the queue without apply: its reserved lines are freed, COMMIT_REFUSED is raised, and the removal
starts a pass (R4, R132, R133). -/
def State.dropEntry (s : State) (e : Entry) (cause : Cause) : State :=
  ({ s with scs := s.scs.release e.lids }.raiseCommit .commitRefused e.link e.tag (some cause)).passFollows

/-! ### The pass (R131) -/

/-- An earlier entry touches the story an entry touches (R131 step 1, R129). -/
def waitsBehind (earlier : List Entry) (e : Entry) : Bool :=
  earlier.any (fun q => editStory q.edit = editStory e.edit)

/-- An entry found DEFERRED, with COMMIT_DEFERRED the first time (R131 step 3). -/
def State.noteDeferred (s : State) (e : Entry) : State :=
  if e.deferredSent then s else s.raiseCommit .commitDeferred e.link e.tag none

/-- The pass over the rest of the queue, behind the entries already evaluated (R131). It ends when it has removed an
entry. -/
def State.passFrom (s : State) (earlier : List Entry) : List Entry → State
  | [] => s.setQueue earlier
  | e :: rest =>
    if e.state = .copying then s.passFrom (earlier ++ [e]) rest
    else if waitsBehind earlier e then s.passFrom (earlier ++ [{ e with state := .waiting }]) rest
    else
      match s.entryChecks e.link e.edit e.lids.length with
      | some (cause, detail) =>
        ((s.setQueue (earlier ++ rest)).recordRefusal e.link .ecmt cause detail).dropEntry e cause
      | none =>
        if s.msc.mode = .onAir ∧ s.meetsGuard e.edit then
          (s.noteDeferred e).passFrom (earlier ++ [{ e with state := .deferred, deferredSent := true }]) rest
        else (s.setQueue (earlier ++ rest)).applyEntry e

/-- A pass over the whole queue (R131). -/
def State.pass (s : State) : State := s.passFrom [] s.ede.queue

/-- One pass that was due is taken (R132). -/
def State.passTaken (s : State) : State :=
  { s with ede := { s.ede with passesDue := s.ede.passesDue - 1 } }

/-- QUEUE_PASS (R131, R132): a pass as an event of its own. -/
def execQueuePass (s : State) : Host.Outcome State Fault Refusal :=
  finish s.passTaken.pass

/-! ### Copy completion (R128) -/

/-- The entry whose copy a link's slot feeds: the link's entry in COPYING (R126, R128). -/
def copyingEntry? (queue : List Entry) (link : Link) : Option Entry :=
  queue.find? (fun e => e.link = link && e.state = .copying)

/-- The queue without an entry, known by its link and tag (R127). -/
def withoutEntry (queue : List Entry) (link : Link) (tag : Byte) : List Entry :=
  queue.filter (fun e => !(e.link = link && e.tag = tag))

/-- The queue with an entry changed (R127). -/
def changeEntry (queue : List Entry) (link : Link) (tag : Byte) (f : Entry → Entry) : List Entry :=
  queue.map (fun e => if e.link = link ∧ e.tag = tag then f e else e)

/-- The copy of an entry completes: the page is in the reserved lines and the slot is CLOSED; a marked cancel removes the
entry, else the entry leaves COPYING and a pass runs in the same event (R128, log entry 19). -/
def State.copyDone (s : State) (link : Link) (page : Page) (e : Entry) : State :=
  let s1 := { s with scs := s.scs.writePage e.lids page }.setSlot link .closed
  if e.cancelMarked then (s1.setQueue (withoutEntry s.ede.queue e.link e.tag)).dropEntry e .cancelled
  else (s1.setQueue (changeEntry s.ede.queue e.link e.tag (fun x => { x with state := .waiting }))).pass

/-- COPY_COMPLETION (R128): with no copy in flight on the link none can complete, and nothing changes (log entries 5,
21). -/
def execCopyCompletion (link : Link) (s : State) : Host.Outcome State Fault Refusal :=
  match s.slot link with
  | .copying _ _ page =>
    match copyingEntry? s.ede.queue link with
    | some e => finish (s.copyDone link page e)
    | none => finish (s.setSlot link .closed)
  | _ => finish s

/-! ### ECMT (R124, R126) -/

/-- An accepted ECMT with the event that follows it directly where the entry has no line to copy: its copy completes (R128),
and no command comes between (log entry 30). -/
def State.startCopy (s : State) (link : Link) (tag : Byte) (e : EditParams) (n : Nat) (page : Page) (st : Store)
    (lids : List Nat) : State :=
  let s1 := s.acceptCommit link tag e n page st lids
  if n = 0 then s1.copyDone link page (newEntry link tag e lids) else s1

/-- ECMT (R124, R126). -/
def doEcmt (link : Link) (tag : Byte) (s : State) : State × Status :=
  match s.slot link with
  | .opened e n page =>
    match s.commitChecks link tag e n page with
    | some (cause, detail) => refuse s link .ecmt cause detail
    | none =>
      match s.scs.reserve n with
      | .error cause => refuse s link .ecmt cause tag.toNat
      | .ok (st, lids) => (s.startCopy link tag e n page st lids, .ok (commitData tag s.ede.queue.length lids))
  | _ => refuse s link .ecmt .noEdit tag.toNat

/-! ### Cancel and force (R134, R135) -/

/-- The entry of a link and tag (R127). -/
def findEntry? (queue : List Entry) (link : Link) (tag : Byte) : Option Entry :=
  queue.find? (fun e => e.link = link && e.tag = tag)

/-- A cancel of an entry: marked while COPYING, else removed at once; the data says which, as the flag `marked` (R134, log
entry 13). -/
def State.cancelEntry (s : State) (e : Entry) : State × Status :=
  if e.state = .copying then
    (s.setQueue (changeEntry s.ede.queue e.link e.tag (fun x => { x with cancelMarked := true })), .ok (flag true))
  else ((s.setQueue (withoutEntry s.ede.queue e.link e.tag)).dropEntry e .cancelled, .ok (flag false))

/-- QCAN (R134): from the rundown link an entry of the console link is NOT_PERMITTED. -/
def doQcan (link : Link) (entryLink entryTag : Nat) (s : State) : State × Status :=
  match linkOfCode? entryLink with
  | none => (s, .badRequest)
  | some l =>
    if link = .rundown ∧ l = .console then (s, .notPermitted)
    else
      match findEntry? s.ede.queue l (BitVec.ofNat 8 entryTag) with
      | none => refuse s link .qcan .unknownEntry entryTag
      | some e => s.cancelEntry e

/-- The entries before an entry in the queue (R135). -/
def earlierThan (queue : List Entry) (e : Entry) : List Entry :=
  queue.takeWhile (fun q => !(q.link = e.link && q.tag = e.tag))

/-- A DEFERRED entry forced: steps 1, 2 and 4 of the pass, step 3 left out (R135). Step 1 finds no earlier entry in any state
a run reaches; where it did, the entry would be WAITING, which QFRC answers ORDER (log entry 21). -/
def State.forceEntry (s : State) (link : Link) (e : Entry) : State × Status :=
  let s1 := s.setQueue (withoutEntry s.ede.queue e.link e.tag)
  if waitsBehind (earlierThan s.ede.queue e) e then
    refuse (s.setQueue (changeEntry s.ede.queue e.link e.tag (fun x => { x with state := .waiting }))) link .qfrc
      .order e.tag.toNat
  else
    match s.entryChecks e.link e.edit e.lids.length with
    | some (cause, detail) => refuse (s1.dropEntry e cause) link .qfrc cause detail
    | none => (s1.applyEntry e, .ok [])

/-- QFRC (R135). -/
def doQfrc (link : Link) (entryLink entryTag : Nat) (s : State) : State × Status :=
  match linkOfCode? entryLink with
  | none => (s, .badRequest)
  | some l =>
    match findEntry? s.ede.queue l (BitVec.ofNat 8 entryTag) with
    | none => refuse s link .qfrc .unknownEntry entryTag
    | some e =>
      if e.state = .deferred then s.forceEntry link e
      else refuse s link .qfrc .order entryTag

/-! ### Story locks, targets and the refusal record (R138 to R140) -/

/-- The six fields of a lock entry as a response carries them (R138, R179, log entry 13). -/
def lockData (e : LockEntry) : List Byte :=
  u16 e.low ++ u16 e.high ++ flag e.console ++ flag e.rundown ++ flag e.sticky ++ flag e.inUse

/-- SLCK (R138). -/
def doSlck (link : Link) (k : Nat) (e : LockEntry) (s : State) : State × Status :=
  match s.ede.locks[k]? with
  | none => (s, .badRequest)
  | some old =>
    if storyInRange e.low && storyInRange e.high && e.low ≤ e.high then
      if old.sticky then refuse s link .slck .sticky k
      else ({ s with ede := { s.ede with locks := s.ede.locks.set k e } }.passFollows, .ok (lockData e))
    else (s, .badRequest)

/-- The rundown with a story's target out written and its overrun-reported flag cleared (R139). -/
def setTarget (rundown : List Story) (n : Nat) (target : Option Nat) : List Story :=
  rundown.map fun st => if st.number = n then { st with target := target, overrun := false } else st

/-- TGTS (R139): a story number of 0 names no story, and is refused as such (log entry 8). -/
def doTgts (link : Link) (n : Nat) (target : Option Nat) (s : State) : State × Status :=
  if (s.scs.story? n).isNone then refuse s link .tgts .unknownStory n
  else if s.ede.lockedFor link n then refuse s link .tgts .locked n
  else
    ({ s with scs := { s.scs with rundown := setTarget s.scs.rundown n target } }, .ok (u16 n ++ opt u32 target))

/-- The refusal record as RFSL carries it: link, mnemonic, cause and detail (R140). -/
def refusalBytes (r : RefusalRecord) : List Byte :=
  u8 r.link.code ++ r.mnem.bytes ++ u8 r.cause.code ++ u32 r.detail

/-- RFSL (R140). -/
def doRfsl (s : State) : State × Status := (s, .ok (opt refusalBytes s.ede.refusal))

/-! ### CLEAR SHOW (R19, R142, R181) -/

/-- The edit engine after CLEAR SHOW: both slots CLOSED, the queue empty; locks, refusal record and guards kept (R142). -/
def EditEngine.clearShow (ed : EditEngine) : EditEngine :=
  { ed with consoleSlot := .closed, rundownSlot := .closed, queue := [] }

/-- CLRS: the store and the edit engine take the clear, and the content-changed report with cause CLEARED goes to the
scroll engine and the stager, in one event (R19, R142, R181). -/
def State.clearShow (s : State) : State :=
  { s with scs := Store.empty, ede := s.ede.clearShow }.takeReport s.scs.clearReport

/-- CLRS (R181). -/
def doClrs (s : State) : State × Status := (s.clearShow, .ok [])

end Sys2Proof.Machine
end

