-- ==== Sys2Proof/Machine/HandPorts.lean ====
section
/-! DEFINITION. The hand port receivers, HPR0 to HPR3: words and their check (R70, R184), frame assembly (R71 to R75),
counters and the bad run (R76, R81), port states (R77 to R82), the latches (R83, R84) and the diagnostic feed (R85 to
R87); with the meanings of HAND_WORD, PORT_TICK and PORT_SILENCE_EXPIRY. -/

namespace Sys2Proof.Machine

/-! ### The bits of a word (R184) -/

/-- The first flag: the bit that arrives first. -/
def wordFirst (w : HandBits) : Bool := w.getLsbD 19
/-- The last flag. -/
def wordLast (w : HandBits) : Bool := w.getLsbD 18
/-- The abort flag. -/
def wordAbort (w : HandBits) : Bool := w.getLsbD 17
/-- The 16 data bits, data bit 15 arriving first. -/
def wordData (w : HandBits) : Nat := w.toNat / 2 % 65536
/-- A word is good when the count of ones among all 20 of its bits is even (R70). -/
def wordGood (w : HandBits) : Bool :=
  (List.range 20).countP (fun i => w.getLsbD i) % 2 = 0

/-- A complete frame (R70, R75). -/
structure HandFrame where
  kind : UnitKind
  seq : Nat
  deflection : Nat
  buttons : Buttons
deriving DecidableEq, Repr

/-! ### Changes of a port -/

/-- The port after it enters SILENT, FAULT or DISABLED: demand 0, CLAIM cleared, button latches emptied, records none,
silence count 0; deflection and unit kind are kept (R82). -/
def HandPort.left (p : HandPort) (st : PortState) : HandPort :=
  { p with
    state := st
    latch := { p.latch with demand := 0, claim := false }
    buttons := Edges.none
    record := none
    expected := none
    silence := 0 }

/-- A bad frame adds to the bad run, which stops at 8; reaching 8 in ABSENT, LIVE or SILENT makes the port FAULT (R76,
R81). -/
def HandPort.badFrame (p : HandPort) : HandPort :=
  let p1 := { p with badRun := min (p.badRun + 1) Config.badRunMax }
  if p1.badRun = Config.badRunMax ∧ (p.state = .absent ∨ p.state = .live ∨ p.state = .silent) then p1.left .fault
  else p1

/-- A bad frame on the framing counter (R74, R75). -/
def HandPort.framingError (p : HandPort) : HandPort :=
  { p with counters := { p.counters with framing := bump p.counters.framing } }.badFrame

/-- A bad frame on the length counter (R74, R75). -/
def HandPort.lengthError (p : HandPort) : HandPort :=
  { p with counters := { p.counters with length := bump p.counters.length } }.badFrame

/-- A bad frame on the kind counter (R75). -/
def HandPort.kindError (p : HandPort) : HandPort :=
  { p with counters := { p.counters with kind := bump p.counters.kind } }.badFrame

/-- A word with bad parity: counted, any open frame discarded with it, the assembler in HUNT (R72). -/
def HandPort.parityError (p : HandPort) : HandPort :=
  { p with assembler := .hunt, counters := { p.counters with parity := bump p.counters.parity } }.badFrame

/-- A good word with the abort flag: counted as aborted, any open frame discarded, the assembler IDLE (R73). -/
def HandPort.abortWord (p : HandPort) : HandPort :=
  { p with assembler := .idle, counters := { p.counters with aborted := bump p.counters.aborted } }

/-- Whether the assembler holds an open frame (R71). -/
def Assembler.isOpen : Assembler → Bool
  | .open1 .. => true
  | .open2 .. => true
  | _ => false

/-- A good word that carries the first flag begins a frame, which is bad at once when it carries the last flag too; a
frame it cuts off counts on the framing counter (R74). -/
def HandPort.firstWord (p : HandPort) (w : HandBits) : HandPort :=
  let p1 := if p.assembler.isOpen then p.framingError else p
  if wordLast w then { p1 with assembler := .idle }.lengthError
  else { p1 with assembler := .open1 (wordData w / 4096) (wordData w % 64) }

/-- The three words of a frame judged on its kind field (R75). -/
def HandPort.completeFrame (p : HandPort) (kind seq deflection : Nat) (w : HandBits) : HandPort × Option HandFrame :=
  let p1 := { p with assembler := .idle }
  match unitKindOfCode? kind with
  | none => (p1.kindError, none)
  | some k => (p1, some { kind := k, seq := seq, deflection := deflection, buttons := buttonsOf (wordData w) })

/-- A good word that carries neither the first flag nor the abort flag (R75). -/
def HandPort.laterWord (p : HandPort) (w : HandBits) : HandPort × Option HandFrame :=
  match p.assembler with
  | .idle => (p.framingError, none)
  | .hunt => (p, none)
  | .open1 kind seq =>
    if wordLast w then ({ p with assembler := .idle }.lengthError, none)
    else ({ p with assembler := .open2 kind seq (wordData w % 4096) }, none)
  | .open2 kind seq deflection =>
    if wordLast w then p.completeFrame kind seq deflection w
    else ({ p with assembler := .hunt }.lengthError, none)

/-- A word at an enabled port: the port after it, and the valid frame it completes, if any (R70, R72 to R75). -/
def HandPort.takeWord (p : HandPort) (w : HandBits) : HandPort × Option HandFrame :=
  if wordGood w then
    if wordAbort w then (p.abortWord, none)
    else if wordFirst w then (p.firstWord w, none)
    else p.laterWord w
  else (p.parityError, none)

/-- The gap of a frame's sequence number from the expected one (R79). -/
def seqGap (seq expected : Nat) : Nat := (seq + 64 - expected % 64) % 64

/-- What a valid frame adds to the missed counter: the gap when the port is LIVE, nothing when it comes into LIVE (R79). -/
def HandPort.frameGap (p : HandPort) (f : HandFrame) : Nat :=
  match p.state, p.expected with
  | .live, some e => seqGap f.seq e
  | _, _ => 0

/-- The button record a frame's buttons are compared with: none when the frame brings the port into LIVE (R77, R84). -/
def HandPort.liveRecord (p : HandPort) : Option Edges :=
  if p.state = .live then p.record else none

/-- A valid frame's counters, state, tracker, last kind and button record (R77 steps 1 to 3, R79, R84). -/
def HandPort.frameTaken (p : HandPort) (f : HandFrame) : HandPort :=
  { p with
    counters := { p.counters with valid := bump p.counters.valid, missed := bumpBy p.counters.missed (p.frameGap f) }
    badRun := 0
    silence := 0
    state := .live
    expected := some ((f.seq + 1) % 64)
    lastKind := some f.kind
    record := some f.buttons.edges }

/-- A valid frame outside DIAGNOSTIC fills the latch with the demand the shaper returns, and latches its press edges (R77
step 4, R83, R84). -/
def HandPort.frameLatched (p : HandPort) (record : Option Edges) (sh : Shaping) (f : HandFrame) : HandPort :=
  { p with
    latch := { deflection := some f.deflection, demand := shape sh f.kind f.deflection, kind := some f.kind,
               claim := f.buttons.claim }
    buttons := edgesOr p.buttons (pressEdges f.buttons.edges record) }

/-- A valid frame at a port: in DIAGNOSTIC it does not reach the latch or the button latches (R77, R85). -/
def HandPort.validFrame (p : HandPort) (mode : Mode) (sh : Shaping) (f : HandFrame) : HandPort :=
  if mode = .diagnostic then p.frameTaken f
  else (p.frameTaken f).frameLatched p.liveRecord sh f

/-- A player sample at a port: the latch takes the deflection with the last real kind, or WHEEL, and the shaped demand;
press edges are decided against the player record; the player drives the port from its first sample on (R86). -/
def HandPort.sample (p : HandPort) (sh : Shaping) (deflection : Nat) (b : Buttons) : HandPort :=
  let kind := p.lastKind.getD .wheel
  { p with
    latch := { deflection := some deflection, demand := shape sh kind deflection, kind := some kind, claim := b.claim }
    buttons := edgesOr p.buttons (pressEdges b.edges (some p.playerRecord))
    playerRecord := b.edges
    driven := true }

/-- The latch cleared at a change of DIAGNOSTIC or a stop of the player: demand 0, CLAIM-held no, button latches emptied,
player record released, the port no longer driven; deflection and unit kind are kept (R87). -/
def HandPort.cleared (p : HandPort) : HandPort :=
  { p with
    latch := { p.latch with demand := 0, claim := false }
    buttons := Edges.none
    playerRecord := Edges.none
    driven := false }

/-- A port takes a new value; PORT_STATE is raised when its state changed, and the arbiter is told when what decides its
source changed (R77 step 5, R82). -/
def State.takePort (s : State) (n : Fin 4) (p : HandPort) : State :=
  let s1 := if p.state = (s.port n).state then s else s.raise .portState (.port n p.state)
  s1.changePort n p

/-- What decides the hand sources at all four ports (R55). -/
def portInputs (ports : Four HandPort) : Four (Bool × Bool × Bool × Bool) := ports.map (·.inputs)

/-- Every port's latch is cleared; the ports whose inputs changed report to the arbiter, which re-evaluates with all of
them cleared (R87, log entry 12). -/
def State.clearLatches (s : State) : State :=
  let ports := s.ports.map (·.cleared)
  let s1 := { s with ports := ports }
  if portInputs ports = portInputs s.ports then s1 else s1.regrant

/-- The port's tick event: in LIVE the silence count rises, and at 5 the port becomes SILENT (R78). -/
def HandPort.tick (p : HandPort) : HandPort :=
  if p.state = .live then
    if Config.silenceMax ≤ p.silence + 1 then p.left .silent else { p with silence := p.silence + 1 }
  else p

/-- The enable of a port written: off makes it DISABLED, on from DISABLED makes it ABSENT with the assembler in HUNT and
the bad run, silence count and tracker cleared; a write of the value it has changes nothing (R80). -/
def HandPort.withEnable (p : HandPort) (enable : Bool) : HandPort :=
  if p.enabled = enable then p
  else if enable then
    { p with state := .absent, assembler := .hunt, badRun := 0, silence := 0, expected := none }
  else p.left .disabled

/-- One tick delivered to a port is taken (R104). -/
def State.portTickTaken (s : State) (n : Fin 4) : State :=
  { s with due := { s.due with ports := s.due.ports.set n (s.due.ports.get n - 1) } }

/-! ### Meanings -/

/-- HAND_WORD (R70 to R77): words are discarded unexamined while the port is DISABLED or the reset line is asserted (log
entry 9). -/
def execHandWord (n : Fin 4) (w : HandBits) (s : State) : Host.Outcome State Fault Refusal :=
  if s.msc.resetLine || !(s.port n).enabled then finish s
  else
    match (s.port n).takeWord w with
    | (p, none) => finish (s.takePort n p)
    | (p, some f) => finish (s.takePort n (p.validFrame s.msc.mode (s.dsh.get n) f))

/-- PORT_TICK (R78): the port's own tick event, the change to SILENT at the fifth tick included. -/
def execPortTick (n : Fin 4) (s : State) : Host.Outcome State Fault Refusal :=
  finish ((s.portTickTaken n).takePort n (s.port n).tick)

/-- PORT_SILENCE_EXPIRY (R78): the tick event at which the silence count reaches 5; where this tick is not the fifth, no
silence expires and nothing changes (log entry 5). -/
def execPortSilenceExpiry (n : Fin 4) (s : State) : Host.Outcome State Fault Refusal :=
  if (s.port n).state = .live ∧ Config.silenceMax ≤ (s.port n).silence + 1 then
    finish ((s.portTickTaken n).takePort n (s.port n).tick)
  else finish s

end Sys2Proof.Machine
end

