-- ==== Sys2Proof/Machine/Outputs.lean ====
section
/-! DEFINITION. The window stager, WST, and the line outputs, LOA and LOB: staging completion (R150), frame slots (R153 to
R156), the packet layout (R185), and the writes of their parameters (R144, R152); with the meanings of
STAGING_COMPLETION, OUTPUT_TICK, FRAME_SYNC_REQUEST and PACKET_SEND_COMPLETION. -/

namespace Sys2Proof.Machine

/-! ### Staging completion (R150) -/

/-- The sequence after one more staging: it rises by one, and after 4,294,967,295 goes to 1 (R150). -/
def nextSequence (n : Nat) : Nat := if n = Config.clockMax then 1 else n + 1

/-- A staging that completes makes its frame the latest staged frame; a pending restage starts with a new snapshot (R150). -/
def State.stagingDone (s : State) (f : Frame) : State :=
  let seq := nextSequence s.wst.sequence
  let s1 := { s with wst := { s.wst with sequence := seq, latest := some ⟨seq, f⟩, buffer := none, restage := false } }
  if s.wst.restage then { s1 with wst := { s1.wst with buffer := some s1.snapshot } } else s1

/-- STAGING_COMPLETION (R150): in IDLE no staging can complete, and nothing changes. -/
def execStagingCompletion (s : State) : Host.Outcome State Fault Refusal :=
  match s.wst.buffer with
  | some f => finish (s.stagingDone f)
  | none => finish s

/-! ### Packets (R154, R155) -/

/-- The blank packet's frame: fraction 0, the eye row and window rows as they stand, every row blank, holder none, RUNNING
(R154). -/
def Stager.blankFrame (w : Stager) : Frame :=
  { fraction := 0, eyeRow := w.eyeRow, holder := none, scroll := .running, rows := List.replicate w.rows .blank }

/-- A row as a mirrored output sends it: its cells in reverse order, every other field as it stands (R155). -/
def Row.mirrored : Row → Row
  | .blank => .blank
  | .line lid story style mark text => .line lid story style mark text.reverse

/-- A frame as an output sends it (R155). -/
def Frame.sentBy (f : Frame) (c : OutputConfig) : Frame :=
  if c.mirror then { f with rows := f.rows.map (·.mirrored) } else f

/-- The output starts a packet of a frame: the counter's value is placed in it and the counter rises by one, from 65,535 to
0; in MASTER a frame-sync mark is driven (R155). -/
def Output.start (o : Output) (kind : PacketKind) (f : Frame) : Output :=
  { o with
    sending := some { counter := o.packetCounter, kind := kind, frame := f.sentBy o.config,
                      syncMark := o.config.framing = .master }
    packetCounter := (o.packetCounter + 1) % 65536 }

/-- A slot opened at an output that is not sending (R154): the blank packet while nothing is staged; NEW for a frame not sent
yet; else the latest frame again, UNDERRUN while a staging is in flight and STATIC otherwise. -/
def State.openSlot (s : State) (o : OutputId) : State :=
  let x := s.out o
  match s.wst.latest with
  | none => s.setOut o (x.start .static s.wst.blankFrame)
  | some l =>
    if x.lastSent ≠ some l.sequence then
      s.setOut o { x.start .new l.frame with lastSent := some l.sequence }
    else if s.wst.buffer.isSome then
      (s.setOut o { x.start .underrun l.frame with underrun := bump x.underrun }).raise .outputUnderrun (.output o)
    else s.setOut o (x.start .static l.frame)

/-- One tick delivered to an output is taken (R104). -/
def State.outTickTaken (s : State) : OutputId → State
  | .a => { s with due := { s.due with outA := s.due.outA - 1 } }
  | .b => { s with due := { s.due with outB := s.due.outB - 1 } }

/-- OUTPUT_TICK (R153, R156): a tick at an enabled MASTER output opens a slot, or is counted late while it is sending; a tick
does not reach any other output. -/
def execOutputTick (o : OutputId) (s : State) : Host.Outcome State Fault Refusal :=
  let s1 := s.outTickTaken o
  if (s.out o).takesTicks then
    match (s.out o).sending with
    | some _ => finish (s1.setOut o { s.out o with late := bump (s.out o).late })
    | none => finish (s1.openSlot o)
  else finish s1

/-- FRAME_SYNC_REQUEST (R153, R156): a request on the pin of an enabled SLAVE output opens a slot, or is counted as a
collision while it is sending; on any other pin it is not taken. -/
def execFrameSyncRequest (o : OutputId) (s : State) : Host.Outcome State Fault Refusal :=
  if (s.out o).config.enable ∧ (s.out o).config.framing = .slave then
    match (s.out o).sending with
    | some _ => finish (s.setOut o { s.out o with collision := bump (s.out o).collision })
    | none => finish (s.openSlot o)
  else finish s

/-- PACKET_SEND_COMPLETION (R155): the send state becomes IDLE and nothing further is set. -/
def execPacketSendCompletion (o : OutputId) (s : State) : Host.Outcome State Fault Refusal :=
  finish (s.setOut o { s.out o with sending := none })

/-! ### The packet on the data line (R185) -/

/-- The code of a packet kind (R185). -/
def PacketKind.code : PacketKind → Nat
  | .new => 1
  | .static => 2
  | .underrun => 3

/-- A row record (R185). -/
def Row.bytes : Row → List Byte
  | .blank => u8 0
  | .line lid story style mark text =>
    u8 1 ++ u24 lid ++ u16 story ++ u8 style.code ++ u8 mark.code ++ u8 (mark.cue?.getD 0) ++ cells text

/-- The bytes of a packet from the packet counter through the last row record (R185). -/
def Packet.content (p : Packet) : List Byte :=
  u16 p.counter ++ u8 p.kind.code ++ u16 p.frame.fraction ++ u8 p.frame.eyeRow ++ u8 p.frame.rows.length ++
    u8 (holderCode p.frame.holder) ++ u8 p.frame.scroll.code ++ p.frame.rows.flatMap Row.bytes

/-- The bytes of a packet as they pass on the data line: start byte, length, content, check (R185). -/
def Packet.bytes (p : Packet) : List Byte :=
  let body := u16 p.content.length ++ p.content
  0x5A#8 :: (body ++ u16 (crc16 body).toNat)

/-! ### Parameters (R144, R152) -/

/-- The window geometry written; a change of either value is a staging trigger (R144). -/
def State.setGeometry (s : State) (rows eyeRow : Nat) : State :=
  if rows = s.wst.rows ∧ eyeRow = s.wst.eyeRow then s
  else { s with wst := { s.wst with rows := rows, eyeRow := eyeRow } }.trigger

/-- An output's configuration written: an enable turned on makes last-sent none; the other changes need nothing more, since
slots, marks and mirroring are decided from the configuration as it stands (R152). -/
def Output.configure (o : Output) (c : OutputConfig) : Output :=
  { o with config := c, lastSent := if c.enable && !o.config.enable then none else o.lastSent }

end Sys2Proof.Machine
end

