-- ==== Sys2Proof/Machine/Timebase.lean ====
section
/-! DEFINITION. The timebase and pace block, TBP: the reference and the internal generator (R104 to R109), the show clock
(R110, R111), cue timers (R112, R113), back-time (R114) and the auto source's mode and parameters (R115, R116); with the
meanings of REFERENCE_EDGE, INTERNAL_TICK, REFERENCE_LOSS, SHOW_TIME_TICK and CUE_TIMER. -/

namespace Sys2Proof.Machine

/-! ### The timebase (R104 to R109) -/

/-- The timebase enters a state; REFERENCE_STATE is raised at an entry to LOCKED or LOST (R104). -/
def State.enterRef (s : State) (st : RefState) : State :=
  let s1 := { s with tbp := { s.tbp with state := st } }
  if st = .free then s1 else s1.raise .referenceState (.reference st)

/-- The internal generator is running: FREE or LOST (R105). -/
def Timebase.generating (t : Timebase) : Bool := t.state ≠ .locked

/-- The instant of the generator's next tick (R105). -/
def Timebase.nextTick (t : Timebase) : Nat := t.lastTick + t.rate.period

/-- The generator's tick at once, when the instant of its next tick has already passed (R105, R109). -/
def State.overdueTick (s : State) : State :=
  if s.tbp.generating ∧ s.tbp.nextTick < s.tbp.now then s.tickAt s.tbp.now else s

/-- An edge in LOCKED: a glitch when less than half a nominal period after the last tick, else a tick (R106). -/
def State.lockedEdge (s : State) : State :=
  if 2 * (s.tbp.now - s.tbp.lastTick) < s.tbp.rate.period then
    { s with tbp := { s.tbp with glitches := bump s.tbp.glitches } }
  else s.tickAt s.tbp.now

/-- REFERENCE_EDGE (R105, R106, R108): ignored in FREE and while the reset line is asserted; in LOST it recovers the
reference with a tick; in LOCKED it is a tick or a glitch. -/
def execReferenceEdge (instant : Nat) (s : State) : Host.Outcome State Fault Refusal :=
  let s1 := s.reach instant
  if s.msc.resetLine then finish s1
  else
    match s.tbp.state with
    | .free => finish s1
    | .lost => finish ((s1.tickAt s1.tbp.now).enterRef .locked)
    | .locked => finish s1.lockedEdge

/-- INTERNAL_TICK (R105): in FREE and LOST a tick one nominal period after the last; in LOCKED, and while the reset line is
asserted, the generator produces none. -/
def execInternalTick (s : State) : Host.Outcome State Fault Refusal :=
  if s.msc.resetLine || !s.tbp.generating then finish s
  else finish (s.tickAt s.tbp.nextTick)

/-- REFERENCE_LOSS (R107): in LOCKED, 3 nominal periods after the last tick, the timebase enters LOST with a tick; in the
other states no loss can be decided. The periods are of the rate in force now, so that after a write of a shorter one the
tick may be dated before the write (log entry 27). -/
def execReferenceLoss (s : State) : Host.Outcome State Fault Refusal :=
  if s.msc.resetLine || s.tbp.generating then finish s
  else finish ((s.tickAt (s.tbp.lastTick + 3 * s.tbp.rate.period)).enterRef .lost)

/-- The reference selection written: on enters LOST from FREE, off enters FREE, with the generator's tick at once when it
is overdue; the value it has changes nothing (R109). -/
def State.setRefSelect (s : State) (on : Bool) : State :=
  if s.tbp.refSelect = on then s
  else
    let s1 := { s with tbp := { s.tbp with refSelect := on } }
    if on then s1.enterRef .lost else (s1.enterRef .free).overdueTick

/-- The nominal rate written, with the generator's tick at once when the new interval has passed (R109). In LOCKED the write
makes no tick and no loss, also where 3 new periods have passed since the last tick: the part stays LOCKED until a
REFERENCE_LOSS (log entry 27). -/
def State.setRate (s : State) (r : Rate) : State :=
  if s.tbp.rate = r then s
  else { s with tbp := { s.tbp with rate := r } }.overdueTick

/-! ### Show clock, cue timers, back-time (R110 to R114) -/

/-- Step 1 of the show-time event: a running clock rises by one and stops at its top (R110). -/
def State.advanceClock (s : State) : State :=
  if s.tbp.running then { s with tbp := { s.tbp with clock := min (s.tbp.clock + 1) Config.clockMax } } else s

/-- One cue timer compared with the clock: an armed timer whose compare is reached raises CUE_TIMER and is disarmed, its
compare kept (R112). -/
def State.fireTimer (s : State) (slot : Fin 4) : State :=
  let t := s.tbp.timers.get slot
  if t.armed ∧ t.compare ≤ s.tbp.clock then
    { s with tbp := { s.tbp with timers := s.tbp.timers.set slot { t with armed := false } } }.raise .cueTimer
      (.value slot.val)
  else s

/-- Step 2: the four timers compared, in slot order (R112). -/
def State.fireTimers (s : State) : State :=
  (((s.fireTimer 0).fireTimer 1).fireTimer 2).fireTimer 3

/-- The rundown with a story's overrun-reported flag set (R114). -/
def markOverrun (rundown : List Story) (number : Nat) : List Story :=
  rundown.map fun st => if st.number = number then { st with overrun := true } else st

/-- The story that back-time reports: the current story, when the clock is greater than its target out and its flag is
clear (R114). -/
def State.overdueStory? (s : State) : Option Story :=
  (s.sce.currentStory.bind s.scs.story?).filter fun st =>
    !st.overrun && (match st.target with | some t => t < s.tbp.clock | none => false)

/-- Step 3: while the clock is running the current story is tested (R110, R114). -/
def State.backTime (s : State) : State :=
  if s.tbp.running then
    match s.overdueStory? with
    | some st =>
      { s with scs := { s.scs with rundown := markOverrun s.scs.rundown st.number } }.raise .backtimeOver
        (.value st.number)
    | none => s
  else s

/-- One tick delivered to the show clock is taken (R104). -/
def State.showTimeTickTaken (s : State) : State :=
  { s with due := { s.due with showTime := s.due.showTime - 1 } }

/-- SHOW_TIME_TICK (R110). -/
def execShowTimeTick (s : State) : Host.Outcome State Fault Refusal :=
  finish s.showTimeTickTaken.advanceClock.fireTimers.backTime

/-- CUE_TIMER (R112): an armed timer whose compare the clock has reached fires; any other timer stays as it is (log entry
5). -/
def execCueTimer (slot : Fin 4) (s : State) : Host.Outcome State Fault Refusal :=
  finish (s.fireTimer slot)

/-- The data of a response to CLKC: the clock's value and running flag (R111). -/
def clockData (t : Timebase) : List Byte := u32 t.clock ++ flag t.running

/-- CLKC: start, stop, set; any other action, or a set without a value, is answered BAD_REQUEST (R111). -/
def doClkc (action : Nat) (value : Option Nat) (s : State) : State × Status :=
  match action, value with
  | 0, none => ({ s with tbp := { s.tbp with running := true } }, .ok (clockData { s.tbp with running := true }))
  | 1, none => ({ s with tbp := { s.tbp with running := false } }, .ok (clockData { s.tbp with running := false }))
  | 2, some v => ({ s with tbp := { s.tbp with clock := v } }, .ok (clockData { s.tbp with clock := v }))
  | _, _ => (s, .badRequest)

/-- The data of a response to CUEA and CUED: the slot's compare and armed flag (R113). -/
def timerData (t : CueTimer) : List Byte := u32 t.compare ++ flag t.armed

/-- A cue timer replaced. -/
def State.setTimer (s : State) (slot : Fin 4) (t : CueTimer) : State :=
  { s with tbp := { s.tbp with timers := s.tbp.timers.set slot t } }

/-- CUEA: the slot's compare becomes the value and its armed flag set (R113). -/
def doCuea (slot compare : Nat) (s : State) : State × Status :=
  match portOf? slot with
  | none => (s, .badRequest)
  | some k => (s.setTimer k ⟨compare, true⟩, .ok (timerData ⟨compare, true⟩))

/-- CUED: the slot's armed flag becomes clear, its compare kept (R113). -/
def doCued (slot : Nat) (s : State) : State × Status :=
  match portOf? slot with
  | none => (s, .badRequest)
  | some k =>
    let t : CueTimer := { s.tbp.timers.get k with armed := false }
    (s.setTimer k t, .ok (timerData t))

/-! ### The auto source (R115, R116) -/

/-- The auto mode written; a change between OFF and not OFF is told to the arbiter (R115). -/
def State.setAutoMode (s : State) (m : AutoMode) : State :=
  let s1 := { s with tbp := { s.tbp with autoMode := m } }
  if m = .off ↔ s.tbp.autoMode = .off then s1 else s1.regrant

/-- The constant value written as PARM writes it (R116). -/
def State.setConstant (s : State) (v : Nat) : State :=
  { s with tbp := { s.tbp with constant := min v Config.speedMax } }

/-- The constant value written where one is carried (R115). -/
def State.setConstant? (s : State) : Option Nat → State
  | some v => s.setConstant v
  | none => s

/-- The pace limits written. -/
def State.setPace (s : State) (lo hi : Nat) : State :=
  { s with tbp := { s.tbp with paceMin := lo, paceMax := hi } }

/-- AMOD (R115): the mode, and a constant value where one is carried, written in one event; the response carries
the constant value as it then stands (log entry 17). -/
def doAmod (mode : Nat) (constant : Option Nat) (s : State) : State × Status :=
  match autoModeOfCode? mode with
  | none => (s, .badRequest)
  | some m =>
    let s1 := (s.setConstant? constant).setAutoMode m
    (s1, .ok (u8 m.code ++ u16 s1.tbp.constant))

end Sys2Proof.Machine
end

