-- ==== Sys2Proof/Machine/Settings.lean ====
section
/-! DEFINITION. The settings of R163: gathered from their owners and written to them, their words in the settings memory
(R186), and the modes (R160 to R162); with the meanings of RESET_LINE, RESET_RELEASE, LOAD_COMPLETION,
SETTINGS_LOAD_TIMEOUT, SAVE_COMPLETION and SAVE_TIMEOUT. -/

namespace Sys2Proof.Machine

/-- The fields of the settings image (R163). -/
structure Settings where
  portEnable : Four Bool
  shaping : Four Shaping
  console : SourceEntry
  hand : Four SourceEntry
  auto : SourceEntry
  threshold : Nat
  holdOverValue : Nat
  accel : Nat
  decel : Nat
  paceMin : Nat
  paceMax : Nat
  constant : Nat
  rows : Nat
  eyeRow : Nat
  guardAbove : Nat
  guardBelow : Nat
  outA : OutputConfig
  outB : OutputConfig
  rate : Rate
  refSelect : Bool
deriving DecidableEq, Repr

/-- The settings as their owners hold them (R163, R166). -/
def State.settings (s : State) : Settings :=
  { portEnable := s.ports.map (·.enabled), shaping := s.dsh, console := s.aua.console, hand := s.aua.hand,
    auto := s.aua.auto, threshold := s.aua.threshold, holdOverValue := s.aua.holdOverValue, accel := s.sce.accel,
    decel := s.sce.decel, paceMin := s.tbp.paceMin, paceMax := s.tbp.paceMax, constant := s.tbp.constant,
    rows := s.wst.rows, eyeRow := s.wst.eyeRow, guardAbove := s.ede.guardAbove, guardBelow := s.ede.guardBelow,
    outA := s.loa.config, outB := s.lob.config, rate := s.tbp.rate, refSelect := s.tbp.refSelect }

/-- The default of every field (R163): the values after the reset line. -/
def Settings.defaults : Settings := State.reset.settings

/-! ### The words of the image (R163, R186) -/

/-- The words of one port: enable, centre, dead-band, reverse, P[0] to P[32] (R186). -/
def portWords (enable : Bool) (p : Shaping) : List Nat :=
  [enable.toNat, p.centre, p.deadband, p.reverse.toNat] ++ (List.range 33).map (curvePoint p)

/-- The words of one source: enable, priority (R186). -/
def sourceWords (e : SourceEntry) : List Nat := [e.enable.toNat, e.priority]

/-- The words of one output: enable, framing, mirror (R186). -/
def outputWords (c : OutputConfig) : List Nat := [c.enable.toNat, c.framing.code, c.mirror.toNat]

/-- The 179 field words in the order of the memory (R186). -/
def Settings.fields (v : Settings) : List Nat :=
  portWords v.portEnable.p0 v.shaping.p0 ++ portWords v.portEnable.p1 v.shaping.p1 ++
    portWords v.portEnable.p2 v.shaping.p2 ++ portWords v.portEnable.p3 v.shaping.p3 ++
    sourceWords v.console ++ v.hand.toList.flatMap sourceWords ++ sourceWords v.auto ++
    [v.threshold, v.holdOverValue, v.accel, v.decel, v.paceMin, v.paceMax, v.constant, v.rows, v.eyeRow,
      v.guardAbove, v.guardBelow] ++
    outputWords v.outA ++ outputWords v.outB ++ [v.rate.code, v.refSelect.toNat]

/-- The field words as 16-bit words (R163). -/
def Settings.words (v : Settings) : List Word16 := v.fields.map (BitVec.ofNat 16)

/-- The sum of words, modulo 65,536: the check of an image (R163). -/
def checkSum (words : List Word16) : Word16 := words.foldl (· + ·) 0

/-- The image with its check word: 180 words (R163). -/
def imageOf (fields : List Word16) : List Word16 := fields ++ [checkSum fields]

/-- An image is good when its check word equals the sum of its 179 field words (R163). -/
def imageGood (image : List Word16) : Bool :=
  image.length = 180 && checkSum (image.take Config.fieldWords) = image.getD Config.fieldWords 0

/-- The value of a word of an image. -/
def wordAt (image : List Word16) (i : Nat) : Nat := (image.getD i 0).toNat

/-- The shaping set of port p, each value taken as PARM and CRVW would take it (R164). -/
def shapingOf (image : List Word16) (p : Nat) : Shaping :=
  { centre := min (wordAt image (37 * p + 1)) 4095
    deadband := min (wordAt image (37 * p + 2)) 255
    reverse := wordAt image (37 * p + 3) ≠ 0
    curve := (List.range 33).map fun k => min (wordAt image (37 * p + 4 + k)) Config.speedMax }

/-- The entry of source n (R164). -/
def sourceEntryOf (image : List Word16) (n : Nat) : SourceEntry :=
  { enable := wordAt image (148 + 2 * n) ≠ 0, priority := min (wordAt image (149 + 2 * n)) 15 }

/-- The configuration of an output whose words start at i; any non-zero framing is SLAVE (R164). -/
def outputConfigOf (image : List Word16) (i : Nat) : OutputConfig :=
  { enable := wordAt image i ≠ 0
    framing := if wordAt image (i + 1) = 0 then .master else .slave
    mirror := wordAt image (i + 2) ≠ 0 }

/-- The settings a good image gives: out-of-range values as PARM would take them, a rate code above 2 as 50, a pace minimum
above the maximum raising it, an eye row at or above window rows lowered (R164). -/
def settingsOf (image : List Word16) : Settings :=
  let rows := clampTo 1 24 (wordAt image 167)
  let paceMin := min (wordAt image 164) Config.speedMax
  { portEnable := ⟨wordAt image 0 ≠ 0, wordAt image 37 ≠ 0, wordAt image 74 ≠ 0, wordAt image 111 ≠ 0⟩
    shaping := ⟨shapingOf image 0, shapingOf image 1, shapingOf image 2, shapingOf image 3⟩
    console := sourceEntryOf image 0
    hand := ⟨sourceEntryOf image 1, sourceEntryOf image 2, sourceEntryOf image 3, sourceEntryOf image 4⟩
    auto := sourceEntryOf image 5
    threshold := min (wordAt image 160) 15
    holdOverValue := min (wordAt image 161) 255
    accel := clampTo 1 4096 (wordAt image 162)
    decel := clampTo 1 4096 (wordAt image 163)
    paceMin := paceMin
    paceMax := max paceMin (min (wordAt image 165) Config.speedMax)
    constant := min (wordAt image 166) Config.speedMax
    rows := rows
    eyeRow := min (wordAt image 168) (rows - 1)
    guardAbove := min (wordAt image 169) 16
    guardBelow := min (wordAt image 170) 32
    outA := outputConfigOf image 171
    outB := outputConfigOf image 174
    rate := (rateOfCode? (wordAt image 177)).getD .r50
    refSelect := wordAt image 178 ≠ 0 }

/-! ### Values taken by their owners (R80, R109, R130, R164) -/

/-- A port's enable written (R80). -/
def State.setPortEnable (s : State) (n : Fin 4) (enable : Bool) : State :=
  s.takePort n ((s.port n).withEnable enable)

/-- The arbiter's settings written; a change of a source entry or of the threshold re-evaluates the grant (R55, R164). -/
def State.setArbiter (s : State) (v : Settings) : State :=
  let a : Arbiter :=
    { s.aua with console := v.console, hand := v.hand, auto := v.auto, threshold := v.threshold,
                 holdOverValue := v.holdOverValue }
  let s1 := { s with aua := a }
  if v.console = s.aua.console ∧ v.hand = s.aua.hand ∧ v.auto = s.aua.auto ∧ v.threshold = s.aua.threshold then s1
  else s1.regrant

/-- The guard sizes written; a change of either starts a pass (R130, R132). -/
def State.setGuards (s : State) (above below : Nat) : State :=
  if above = s.ede.guardAbove ∧ below = s.ede.guardBelow then s
  else { s with ede := { s.ede with guardAbove := above, guardBelow := below } }.passFollows

/-- The slew limits written (R35). -/
def State.setSlew (s : State) (a b : Nat) : State :=
  { s with sce := { s.sce with accel := a, decel := b } }

/-- Every owner takes its values, in the order of R163's table, each with the effects its own rules give for a changed
value; a value equal to the one held changes nothing (R164, log entry 20). -/
def State.takeSettings (s : State) (v : Settings) : State :=
  let s1 := (((s.setPortEnable 0 v.portEnable.p0).setPortEnable 1 v.portEnable.p1).setPortEnable 2
    v.portEnable.p2).setPortEnable 3 v.portEnable.p3
  let s2 := { s1 with dsh := v.shaping }.setArbiter v
  let s3 := ((s2.setSlew v.accel v.decel).setPace v.paceMin v.paceMax).setConstant v.constant
  let s4 := (s3.setGeometry v.rows v.eyeRow).setGuards v.guardAbove v.guardBelow
  let s5 := { s4 with loa := s4.loa.configure v.outA, lob := s4.lob.configure v.outB }
  (s5.setRate v.rate).setRefSelect v.refSelect

/-! ### Modes (R160 to R162) -/

/-- The player stopped: the running flag cleared, and every port's latch and driving taken as R87 gives (R87, R169). -/
def State.stopPlayer (s : State) : State :=
  { s with msc := { s.msc with player := { s.msc.player with running := false } } }.clearLatches

/-- What the ports and the player do at a mode change: on entering and on leaving DIAGNOSTIC the player is stopped and the
latches are cleared (R87, R162). -/
def State.modePorts (s : State) (old new : Mode) : State :=
  if old = .diagnostic ∨ new = .diagnostic then s.stopPlayer else s

/-- What entry to SETUP does at the scroll engine and the auto source: v becomes 0, the auto mode OFF (R49, R115). -/
def State.modeRest (s : State) (new : Mode) : State :=
  if new = .setup then
    { s with sce := { s.sce with velocity := 0 }, tbp := { s.tbp with autoMode := .off } }
  else s

/-- What a mode change does at the arbiter: between REHEARSAL and ON_AIR nothing, else the grant is re-evaluated (R68). -/
def State.modeGrant (s : State) (old new : Mode) : State :=
  if (old = .rehearsal ∧ new = .onAir) ∨ (old = .onAir ∧ new = .rehearsal) then s else s.regrant

/-- A change of mode, one event at the controller: the ports, the scroll engine, the auto source and the arbiter take the
new mode, a pass follows, and the stager is triggered (R162). R162 gives the blocks no order: here the arbiter comes
before the stager, so that a staging the event starts shows the new holder (log entry 28). -/
def State.changeMode (s : State) (new : Mode) : State :=
  let s1 := { s with msc := { s.msc with mode := new } }
  ((((s1.modePorts s.msc.mode new).modeRest new).modeGrant s.msc.mode new).passFollows).trigger

/-- The changes of mode a MODE may ask for (R161). -/
def modePermitted : Mode → Mode → Bool
  | .setup, .rehearsal => true
  | .setup, .diagnostic => true
  | .rehearsal, .setup => true
  | .rehearsal, .onAir => true
  | .onAir, .rehearsal => true
  | .diagnostic, .setup => true
  | _, _ => false

/-- MODE (R161): BAD_REQUEST for an unknown name, BUSY during a store operation, OK for the current mode, a permitted change
executed, BAD_TRANSITION otherwise. -/
def doMode (link : Link) (code : Nat) (s : State) : State × Status :=
  match modeOfCode? code with
  | none => (s, .badRequest)
  | some m =>
    if s.msc.storeOp ≠ .idle then (s, .busy)
    else if m = s.msc.mode then (s, .ok (u8 m.code))
    else if modePermitted s.msc.mode m then (s.changeMode m, .ok (u8 m.code))
    else refuse s link .mode .badTransition m.code

/-! ### Loads (R164, R165, R167) -/

/-- The 180 words the settings memory holds (R186). -/
def readImage (mem : List Host.Cell) : List Word16 := (List.range 180).map (memWord mem)

/-- The settings memory a load reads: what the part has written to it, or an image that came into it from outside. -/
def memoryAtLoad (mem : List Host.Cell) : Option (List Word16) → List Host.Cell
  | none => mem
  | some image => memWriteWords mem 0 (image.take 180)

/-- The image state and the store operation set (R163). -/
def State.setStore (s : State) (image : ImageState) (op : StoreOp) : State :=
  { s with msc := { s.msc with image := image, storeOp := op } }

/-- The end of a load with no good image: every field is handed its default, the image state becomes INVALID and
SETTINGS_STATE is raised with defaulted (R164). -/
def State.takeDefaults (s : State) : State :=
  ((s.takeSettings Settings.defaults).setStore .invalid .idle).raise .settingsState (.settings .defaulted)

/-- The values handed over at a load completion: a good image's, or the defaults (R164). -/
def State.takeImage (s : State) (image : List Word16) : State :=
  if imageGood image then (s.takeSettings (settingsOf image)).setStore .valid .idle else s.takeDefaults

/-- After a load that follows the reset line the mode becomes SETUP in the same event (R165). -/
def State.leaveLoading (s : State) : State :=
  if s.msc.mode = .loading then s.changeMode .setup else s

/-- LOAD_COMPLETION (R164, R165): with no load in flight none can complete, and nothing changes. -/
def execLoadCompletion (instant : Nat) (image : Option (List Word16)) (s : State) :
    Host.Outcome State Fault Refusal :=
  let s1 := s.reach instant
  if s.msc.loading then
    let mem := memoryAtLoad s.mem image
    finish ({ s1 with mem := mem }.takeImage (readImage mem)).leaveLoading
  else finish s1

/-- SETTINGS_LOAD_TIMEOUT (R164): the load is taken as completed with no image. -/
def execSettingsLoadTimeout (instant : Nat) (s : State) : Host.Outcome State Fault Refusal :=
  let s1 := s.reach instant
  if s.msc.loading then finish s1.takeDefaults.leaveLoading else finish s1

/-- LOAD (R167): SETUP only, BUSY during a store operation. -/
def doLoad (s : State) : State × Status :=
  if s.msc.mode ≠ .setup then (s, .notPermitted)
  else if s.msc.storeOp ≠ .idle then (s, .busy)
  else (s.setStore s.msc.image .load, .ok [])

/-! ### Saves (R166) -/

/-- The words of a save in the order it writes them, each with its index in the image: the check word one too great, the 179
field words, the correct check word (R166). -/
def saveWrites (fields : List Word16) : List (Nat × Word16) :=
  (Config.fieldWords, checkSum fields + 1) :: (fields.zipIdx.map (fun x => (x.2, x.1))) ++
    [(Config.fieldWords, checkSum fields)]

/-- The settings memory after the first `written` words of a save (R166). -/
def memAfterWrites (mem : List Host.Cell) (fields : List Word16) (written : Nat) : List Host.Cell :=
  ((saveWrites fields).take written).foldl (fun m w => memWriteWord m w.1 w.2) mem

/-- SAVE (R166): SETUP only, BUSY during a store operation; a snapshot of the 179 fields is taken in the request event. -/
def doSave (s : State) : State × Status :=
  if s.msc.mode ≠ .setup then (s, .notPermitted)
  else if s.msc.storeOp ≠ .idle then (s, .busy)
  else ({ s with msc := { s.msc with storeOp := .save, image := .invalid, snapshot := s.settings.words } }, .ok [])

/-- The end of a save: the store operation becomes NONE and SETTINGS_STATE is raised with its outcome (R166). -/
def State.endSave (s : State) (image : ImageState) (mem : List Host.Cell) (outcome : SettingsOutcome) : State :=
  ({ s with mem := mem, msc := { s.msc with storeOp := .idle, image := image, snapshot := [] } }).raise
    .settingsState (.settings outcome)

/-- The memory when the field words read back differ: the check word one too great (R166), and the words read back. That the
memory then holds the words read back, and not those written, is the model's choice (log entry 31). -/
def memAfterBadReadBack (mem : List Host.Cell) (fields readBack : List Word16) : List Host.Cell :=
  memWriteWords (memAfterWrites mem fields 1) 0 (readBack.take Config.fieldWords)

/-- SAVE_COMPLETION (R166): when each word read back equals the word written, the correct check word is written and the
image becomes VALID; a word that differs stops the save. With no save in flight nothing changes. -/
def execSaveCompletion (readBack : Option (List Word16)) (s : State) : Host.Outcome State Fault Refusal :=
  if s.msc.storeOp = .save then
    if readBack.getD s.msc.snapshot = s.msc.snapshot then
      finish (s.endSave .valid (memAfterWrites s.mem s.msc.snapshot 181) .saved)
    else
      finish (s.endSave .invalid (memAfterBadReadBack s.mem s.msc.snapshot (readBack.getD [])) .saveFailed)
  else finish s

/-- SAVE_TIMEOUT (R166): the save stops at the step the memory did not answer, and the correct check word is not written.
Where the first write is the step not answered, the memory holds the former image (log entry 29). -/
def execSaveTimeout (written : Nat) (s : State) : Host.Outcome State Fault Refusal :=
  if s.msc.storeOp = .save then
    finish (s.endSave .invalid (memAfterWrites s.mem s.msc.snapshot (min written 180)) .saveFailed)
  else finish s

/-! ### The reset line (R165) -/

/-- The settings memory when the reset line is asserted: a save in flight is abandoned where it stands, its first write
made in any case, so that the image left fails its check unless the correct check word was written (R166). -/
def State.memAtReset (s : State) (written : Nat) : List Host.Cell :=
  if s.msc.storeOp = .save then memAfterWrites s.mem s.msc.snapshot (clampTo 1 181 written) else s.mem

/-- RESET_LINE (R165): every block takes its reset values; loads, saves, reads, copies, stagings and sends in flight are
abandoned. The settings memory keeps what it holds. -/
def execResetLine (written : Nat) (s : State) : Host.Outcome State Fault Refusal :=
  finish (State.resetAt s.tbp.now (s.memAtReset written) s.pending)

/-- RESET_RELEASE (R105, R165): the settings load begins, and the internal generator's cadence starts at the release. -/
def execResetRelease (instant : Nat) (s : State) : Host.Outcome State Fault Refusal :=
  let s1 := s.reach instant
  if s.msc.resetLine then
    finish { s1 with msc := { s1.msc with resetLine := false }, tbp := { s1.tbp with lastTick := s1.tbp.now } }
  else finish s1

end Sys2Proof.Machine
end

