-- ==== Sys2Proof/Machine/Params.lean ====
section
/-! DEFINITION. The named parameters: what PARM writes and PGET reads (R179), with each owner's clamping and effects. -/

namespace Sys2Proof.Machine

/-- A parameter with its instance resolved (R179). -/
inductive Param where
  | accel | decel | holdOver
  | portEnable (n : Fin 4)
  | centre (n : Fin 4)
  | deadband (n : Fin 4)
  | reverse (n : Fin 4)
  | refSelect | frameRate | autoConstant | paceMin | paceMax | windowRows | eyeRow | guardAbove | guardBelow
  | outEnable (o : OutputId)
  | outFraming (o : OutputId)
  | outMirror (o : OutputId)
  | source (src : Source)
  | threshold
  | lockEntry (k : Fin 8)
deriving DecidableEq, Repr

/-- The lock entry numbered `n`, none outside 0..7 (R138). -/
def lockOf? (n : Nat) : Option (Fin 8) :=
  if h : n < 8 then some ⟨n, h⟩ else none

/-- A parameter name that has one instance, by its code; it carries no index (R179, R183). -/
def plainParam? : Nat → Option Param
  | 1 => some .accel
  | 2 => some .decel
  | 3 => some .holdOver
  | 8 => some .refSelect
  | 9 => some .frameRate
  | 10 => some .autoConstant
  | 11 => some .paceMin
  | 12 => some .paceMax
  | 13 => some .windowRows
  | 14 => some .eyeRow
  | 15 => some .guardAbove
  | 16 => some .guardBelow
  | 21 => some .threshold
  | _ => none

/-- A parameter name that has several instances, by its code and index; none for an index outside its set (R179, R183). -/
def indexedParam? (name index : Nat) : Option Param :=
  match name with
  | 4 => (portOf? index).map .portEnable
  | 5 => (portOf? index).map .centre
  | 6 => (portOf? index).map .deadband
  | 7 => (portOf? index).map .reverse
  | 17 => (outputOfCode? index).map .outEnable
  | 18 => (outputOfCode? index).map .outFraming
  | 19 => (outputOfCode? index).map .outMirror
  | 20 => (sourceOfNumber? index).map .source
  | 22 => (lockOf? index).map .lockEntry
  | _ => none

/-- The parameter a request names; none for an unknown name and for an index missing, outside its set or not wanted (R179). -/
def paramOf? (name : Nat) : Option Nat → Option Param
  | none => plainParam? name
  | some i => indexedParam? name i

/-! ### Writes -/

/-- The response to an accepted PARM that moved one parameter: the value taken (R179). -/
def taken (v : Nat) : Status := .ok (u32 v)

/-- The response to an accepted PARM that carries two values (R116, R144, R179). -/
def takenBoth (v w : Nat) : Status := .ok (u32 v ++ u32 w)

/-- A tuning field of a port written: in ON_AIR it is NOT_PERMITTED (R91). -/
def State.tune (s : State) (n : Fin 4) (p : Shaping) (v : Nat) : State × Status :=
  if s.msc.mode = .onAir then (s, .notPermitted) else (s.setShaping n p, taken v)

/-- The pace minimum written: above the maximum it raises the maximum, and the response carries both (R116). -/
def State.writePaceMin (s : State) (v : Nat) : State × Status :=
  if s.tbp.paceMax < v then (s.setPace v v, takenBoth v v) else (s.setPace v s.tbp.paceMax, taken v)

/-- The pace maximum written: below the minimum it is taken as the minimum (R116). -/
def State.writePaceMax (s : State) (v : Nat) : State × Status :=
  (s.setPace s.tbp.paceMin (max s.tbp.paceMin v), taken (max s.tbp.paceMin v))

/-- The window geometry written; the response carries window rows and eye row as they stand (R144). -/
def State.writeGeometry (s : State) (rows eyeRow : Nat) : State × Status :=
  (s.setGeometry rows eyeRow, takenBoth rows eyeRow)

/-- One field of an output's configuration written (R152). -/
def State.writeOutput (s : State) (o : OutputId) (c : OutputConfig) (v : Nat) : State × Status :=
  (s.setOut o ((s.out o).configure c), taken v)

/-- The hold-over value written (R69). -/
def State.setHoldOver (s : State) (v : Nat) : State :=
  { s with aua := { s.aua with holdOverValue := v } }

/-- A flag carried as a value: 0 is off, any other value on (R91, R109, R152). -/
def onOff (v : Nat) : Bool := v ≠ 0

/-- A parameter written by its owner, in the request event, with the owner's clamping and effects (R179). -/
def State.writeParam (s : State) (p : Param) (v : Nat) : State × Status :=
  match p with
  | .accel => (s.setSlew (clampTo 1 4096 v) s.sce.decel, taken (clampTo 1 4096 v))
  | .decel => (s.setSlew s.sce.accel (clampTo 1 4096 v), taken (clampTo 1 4096 v))
  | .holdOver => (s.setHoldOver (min v 255), taken (min v 255))
  | .portEnable n => (s.setPortEnable n (onOff v), taken (onOff v).toNat)
  | .centre n => s.tune n { s.dsh.get n with centre := min v 4095 } (min v 4095)
  | .deadband n => s.tune n { s.dsh.get n with deadband := min v 255 } (min v 255)
  | .reverse n => s.tune n { s.dsh.get n with reverse := onOff v } (onOff v).toNat
  | .refSelect => (s.setRefSelect (onOff v), taken (onOff v).toNat)
  | .frameRate =>
    match rateOfCode? v with
    | some r => (s.setRate r, taken v)
    | none => (s, .badRequest)
  | .autoConstant => (s.setConstant v, taken (min v Config.speedMax))
  | .paceMin => s.writePaceMin (min v Config.speedMax)
  | .paceMax => s.writePaceMax (min v Config.speedMax)
  | .windowRows => s.writeGeometry (clampTo 1 24 v) (min s.wst.eyeRow (clampTo 1 24 v - 1))
  | .eyeRow => s.writeGeometry s.wst.rows (min v (s.wst.rows - 1))
  | .guardAbove => (s.setGuards (min v 16) s.ede.guardBelow, taken (min v 16))
  | .guardBelow => (s.setGuards s.ede.guardAbove (min v 32), taken (min v 32))
  | .outEnable o => s.writeOutput o { (s.out o).config with enable := onOff v } (onOff v).toNat
  | .outFraming o =>
    match framingOfCode? v with
    | some f => s.writeOutput o { (s.out o).config with framing := f } v
    | none => (s, .badRequest)
  | .outMirror o => s.writeOutput o { (s.out o).config with mirror := onOff v } (onOff v).toNat
  | .source _ => (s, .badRequest)
  | .threshold => (s, .badRequest)
  | .lockEntry _ => (s, .badRequest)

/-- PARM (R179): an unknown name, or an index missing or outside its set, is answered BAD_REQUEST. -/
def doParm (name : Nat) (index : Option Nat) (value : Nat) (s : State) : State × Status :=
  match paramOf? name index with
  | some p => s.writeParam p value
  | none => (s, .badRequest)

/-! ### Reads -/

/-- A parameter as PGET returns it: its value in four bytes, SOURCE its enable and priority, LOCK_ENTRY its six fields
(R179, R183). -/
def State.readParam (s : State) : Param → List Byte
  | .accel => u32 s.sce.accel
  | .decel => u32 s.sce.decel
  | .holdOver => u32 s.aua.holdOverValue
  | .portEnable n => u32 (s.port n).enabled.toNat
  | .centre n => u32 (s.dsh.get n).centre
  | .deadband n => u32 (s.dsh.get n).deadband
  | .reverse n => u32 (s.dsh.get n).reverse.toNat
  | .refSelect => u32 s.tbp.refSelect.toNat
  | .frameRate => u32 s.tbp.rate.code
  | .autoConstant => u32 s.tbp.constant
  | .paceMin => u32 s.tbp.paceMin
  | .paceMax => u32 s.tbp.paceMax
  | .windowRows => u32 s.wst.rows
  | .eyeRow => u32 s.wst.eyeRow
  | .guardAbove => u32 s.ede.guardAbove
  | .guardBelow => u32 s.ede.guardBelow
  | .outEnable o => u32 (s.out o).config.enable.toNat
  | .outFraming o => u32 (s.out o).config.framing.code
  | .outMirror o => u32 (s.out o).config.mirror.toNat
  | .source src => flag (s.aua.entry src).enable ++ u8 (s.aua.entry src).priority
  | .threshold => u32 s.aua.threshold
  | .lockEntry k => lockData (s.ede.locks.getD k.val LockEntry.reset)

/-- PGET (R179): it changes nothing. -/
def doPget (name : Nat) (index : Option Nat) (s : State) : State × Status :=
  match paramOf? name index with
  | some p => (s, .ok (s.readParam p))
  | none => (s, .badRequest)

end Sys2Proof.Machine
end

