-- ==== Sys2Proof/Machine/Reads.lean ====
section
/-! DEFINITION. The two reads that take time, RDLN (R17) and RDRN (R18): the content captured at their start, and their
completions, with the meanings of RDLN_COMPLETION and RDRN_COMPLETION. -/

namespace Sys2Proof.Machine

/-! ### RDLN (R17) -/

/-- A captured line: LID, ordinal, story number, style, mark, cue number when the mark is CUE, and text (R17). -/
def lineEntry (lid ordinal story : Nat) (c : LineContent) : List Byte :=
  u24 lid ++ u16 ordinal ++ u16 story ++ u8 c.style.code ++ u8 c.mark.code ++ opt u8 c.mark.cue? ++ cells c.text

/-- The content of a line that holds none, which no line in use does (R2, log entry 21). -/
def LineContent.blank : LineContent := { style := .normal, mark := .none, text := [] }

/-- The captured line of a LID at an ordinal (R17). -/
def Store.captureLine (st : Store) (x : Nat × Nat) : List Byte :=
  lineEntry x.1 x.2 ((st.storyOfLine? x.1).getD 0) (((st.line? x.1).bind (·.content)).getD LineContent.blank)

/-- The lines captured: LIDs with their ordinals, from an ordinal on, up to a count (R17). -/
def Store.capturedLines (st : Store) (ordinal count : Nat) : List (Nat × Nat) :=
  ((st.order.drop ordinal).take count).zipIdx ordinal

/-- The number and slug of the start line's story (R17). -/
def Store.captureStory (st : Store) (number : Nat) : List Byte :=
  u16 number ++ opt cells ((st.story? number).bind (·.slug))

/-- The content an RDLN captures from a start line at an ordinal (R17). -/
def Store.captureLines (st : Store) (lid ordinal count : Nat) : List Byte :=
  listOf st.captureLine (st.capturedLines ordinal count) ++ st.captureStory ((st.storyOfLine? lid).getD 0) ++
    flag (ordinal + count < st.lineCount) ++ u8 count

/-! ### RDRN (R18) -/

/-- A captured story: number, line count, target out when present, overrun-reported flag (R18). -/
def storyEntry (st : Story) : List Byte :=
  u16 st.number ++ u16 st.lines.length ++ opt u32 st.target ++ flag st.overrun

/-- The content an RDRN captures for a page (R18). -/
def Store.captureRundown (st : Store) (page : Nat) : List Byte :=
  u8 page ++ u16 st.rundown.length ++ u16 st.lineCount ++ listOf storyEntry ((st.rundown.drop (64 * page)).take 64)

/-! ### Start and completion -/

/-- A read starts on a link: the interface executes it, with the captured content, until its completion (R173). -/
def State.startRead (s : State) (link : Link) (kind : ReadKind) (tag : Byte) (data : List Byte) : State :=
  s.setLink link { s.link link with reading := some { kind := kind, tag := tag, data := data } }

/-- The mnemonic of a read. -/
def ReadKind.mnem : ReadKind → Mnem
  | .rdln => .rdln
  | .rdrn => .rdrn

/-- A read completes: the interface is ready, and the response takes its held place (R17, R173). -/
def State.endRead (s : State) (link : Link) (r : ReadInFlight) : State :=
  (s.setLink link { s.link link with reading := none }).respond link r.tag r.kind.mnem.bytes (.ok r.data)

/-- A read of a kind completes on a link; where none of that kind is in flight nothing changes (log entry 5). -/
def State.completeRead (s : State) (link : Link) (kind : ReadKind) : State :=
  match (s.link link).reading with
  | some r => if r.kind = kind then s.endRead link r else s
  | none => s

/-- RDLN_COMPLETION (R17). -/
def execRdlnCompletion (link : Link) (s : State) : Host.Outcome State Fault Refusal :=
  finish (s.completeRead link .rdln)

/-- RDRN_COMPLETION (R18). -/
def execRdrnCompletion (link : Link) (s : State) : Host.Outcome State Fault Refusal :=
  finish (s.completeRead link .rdrn)

/-- What a request answered later comes to: a status now, or none while its read is in flight (R173). -/
abbrev Answer := State × Option Status

/-- RDLN (R17): a count is taken in 1..8; a LID that names no in-use line, 0 included, is refused (log entry 8). -/
def doRdln (link : Link) (tag : Byte) (lid count : Nat) (s : State) : Answer :=
  match (s.scs.line? lid).bind (fun l => s.scs.ordinal? l.lid) with
  | none => ((refuse s link .rdln .unknownLine lid).1, some (refuse s link .rdln .unknownLine lid).2)
  | some o => (s.startRead link .rdln tag (s.scs.captureLines lid o (clampTo 1 8 count)), none)

/-- RDRN (R18): a page number is taken in 0..3. -/
def doRdrn (link : Link) (tag : Byte) (page : Nat) (s : State) : Answer :=
  (s.startRead link .rdrn tag (s.scs.captureRundown (min page 3)), none)

end Sys2Proof.Machine
end

