-- ==== Sys2Proof/Machine/Player.lean ====
section
/-! DEFINITION. The diagnostic player: its table (R168), its start and stop (R169) and its tick (R170); with the meaning of
PLAYER_TICK and what DGLD and DGRN do. -/

namespace Sys2Proof.Machine

/-- The player replaced. -/
def State.setPlayer (s : State) (p : Player) : State :=
  { s with msc := { s.msc with player := p } }

/-! ### The tick (R170) -/

/-- The entry at a cursor. -/
def Player.entryAt (p : Player) (c : Nat) : PlayerEntry := p.table.getD c PlayerEntry.reset

/-- The cursor after an entry has been presented for the last time: the next entry; at the table length entry 0 when
looping, else finished (R170 step 3). -/
def Player.nextCursor (p : Player) (c : Nat) : Option Nat :=
  if c + 1 = p.length then (if p.loop then some 0 else none) else some (c + 1)

/-- The remaining count that goes with a cursor: the entry's duration, and 0 for a finished one (R170 step 3). -/
def Player.durationAt (p : Player) : Option Nat → Nat
  | some c => (p.entryAt c).duration
  | none => 0

/-- The remaining count falls by 1; at 0 the cursor advances (R170 step 3). -/
def Player.advance (p : Player) (c : Nat) : Player :=
  if p.remaining - 1 = 0 then
    { p with cursor := p.nextCursor c, remaining := p.durationAt (p.nextCursor c) }
  else { p with remaining := p.remaining - 1 }

/-- An entry presented to its port as a sample (R86, R170 step 2). -/
def State.present (s : State) (e : PlayerEntry) : State :=
  s.takePort e.port ((s.port e.port).sample (s.dsh.get e.port) e.deflection e.buttons)

/-- The player's tick event while it runs (R170). -/
def State.playerTick (s : State) : State :=
  match s.msc.player.cursor with
  | none => s.stopPlayer
  | some c => (s.present (s.msc.player.entryAt c)).setPlayer (s.msc.player.advance c)

/-- One tick delivered to the player is taken (R104). -/
def State.playerTickTaken (s : State) : State :=
  { s with due := { s.due with player := s.due.player - 1 } }

/-- PLAYER_TICK (R170): a player that is not running presents nothing. -/
def execPlayerTick (s : State) : Host.Outcome State Fault Refusal :=
  if s.msc.player.running then finish s.playerTickTaken.playerTick else finish s.playerTickTaken

/-! ### The table (R168) -/

/-- An entry as taken: a deflection above 4095 as 4095, a duration of 0 as 1 and above 255 as 255 (R168). -/
def takenEntry (port : Fin 4) (e : PlayerArg) : PlayerEntry :=
  { port := port, deflection := min e.deflection 4095, buttons := e.buttons, duration := clampTo 1 255 e.duration }

/-- The entries as taken; none where one names a port outside 0..3 (R168). -/
def takenEntries : List PlayerArg → Option (List PlayerEntry)
  | [] => some []
  | e :: rest =>
    match portOf? e.port, takenEntries rest with
    | some n, some es => some (takenEntry n e :: es)
    | _, _ => none

/-- The table with a run of entries replaced, the others kept (R168). -/
def writeEntries (table : List PlayerEntry) (first : Nat) (es : List PlayerEntry) : List PlayerEntry :=
  table.take first ++ es ++ table.drop (first + es.length)

/-- The list tests of DGLD: a first index in 0..255, 1 to 64 entries, none past entry 255 (R168, log entry 15). -/
def loadOk (first count : Nat) : Bool := first ≤ 255 && 1 ≤ count && count ≤ 64 && first + count ≤ 256

/-- DGLD (R168): the data are the first index, the count written and the length taken. -/
def doDgld (first : Nat) (entries : List PlayerArg) (length : Nat) (s : State) : State × Status :=
  if !loadOk first entries.length then (s, .badRequest)
  else
    match takenEntries entries with
    | none => (s, .badRequest)
    | some es =>
      if s.msc.mode ≠ .setup then (s, .notPermitted)
      else
        let p := s.msc.player
        (s.setPlayer { p with table := writeEntries p.table first es, length := min length 256 },
          .ok (u8 first ++ u8 es.length ++ u16 (min length 256)))

/-! ### Start and stop (R169) -/

/-- The cursor as a response carries it: FFFFh when finished (R183). -/
def cursorCode : Option Nat → Nat
  | some c => c
  | none => 65535

/-- The data of an OK to DGRN (R169). -/
def playerData (p : Player) : List Byte :=
  flag p.running ++ flag p.loop ++ u16 (cursorCode p.cursor) ++ u16 p.length

/-- A running player stopped; a stopped one is left as it is (R169). -/
def State.haltPlayer (s : State) : State := if s.msc.player.running then s.stopPlayer else s

/-- The player as a start leaves it (R169). -/
def Player.started (p : Player) (loop : Bool) : Player :=
  { p with running := true, loop := loop, cursor := some 0, remaining := (p.entryAt 0).duration }

/-- The ports with every player record set to all released (R86, R169). -/
def releasedRecords (ports : Four HandPort) : Four HandPort :=
  ports.map (fun p => { p with playerRecord := Edges.none })

/-- A start with a table that is not empty: a running player is stopped first (R169). -/
def State.startPlayer (s : State) (loop : Bool) : State :=
  let s1 := s.haltPlayer
  { s1.setPlayer (s1.msc.player.started loop) with ports := releasedRecords s1.ports }

/-- DGRN with an action that is known, in DIAGNOSTIC (R169). -/
def State.runPlayer (s : State) (link : Link) : Option Bool → State × Status
  | some loop =>
    if s.msc.player.length = 0 then refuse s link .dgrn .emptyTable 0
    else (s.startPlayer loop, .ok (playerData (s.startPlayer loop).msc.player))
  | none => (s.haltPlayer, .ok (playerData s.haltPlayer.msc.player))

/-- DGRN (R169): action 0 is start, with a loop flag, 1 is stop. -/
def doDgrn (link : Link) (action : Nat) (loop : Option Bool) (s : State) : State × Status :=
  match action, loop with
  | 0, some l => if s.msc.mode ≠ .diagnostic then (s, .notPermitted) else s.runPlayer link (some l)
  | 1, none => if s.msc.mode ≠ .diagnostic then (s, .notPermitted) else s.runPlayer link none
  | _, _ => (s, .badRequest)

end Sys2Proof.Machine
end

