-- ==== Sys2Proof/Machine/Status.lean ====
section
/-! DEFINITION. The state STAT reports (R180): the part selector, and the selectors for a port (R88), an output (R158), the
commit queue (R141) and the timebase (R118), laid out by R183. -/

namespace Sys2Proof.Machine

/-! ### The part selector (R180) -/

/-- The free, reserved and in-use line counts, the story count and L. -/
def storeStatus (st : Store) : List Byte :=
  u16 st.free ++ u16 st.reserved ++ u16 st.inUse ++ u16 st.rundown.length ++ u16 st.lineCount

/-- The anchor, its ordinal, the fraction and the absolute position; the velocity, scroll state and pending jump; the
console manual speed and the current story. -/
def State.scrollStatus (s : State) : List Byte :=
  opt u24 s.sce.anchor ++ opt u16 s.anchorOrdinal ++ u16 s.sce.fraction ++ opt u32 s.position? ++
    i16 s.sce.velocity ++ u8 s.sce.state.code ++ opt jumpBytes s.sce.pendingJump ++ i16 s.sce.manualSpeed ++
    opt u16 s.sce.currentStory

/-- The holder, the lock and the hold-over count. -/
def arbiterStatus (a : Arbiter) : List Byte :=
  u8 (holderCode a.holder) ++ u8 (holderCode a.lock) ++ u8 a.count

/-- The player's running flag, loop flag, cursor, remaining count and table length. -/
def playerStatus (p : Player) : List Byte :=
  flag p.running ++ flag p.loop ++ u16 (cursorCode p.cursor) ++ u8 p.remaining ++ u16 p.length

/-- The frames in the requesting link's receive queue and response queue, and its link error counter. The response queue
is counted before STAT's own response joins it (log entry 13). -/
def linkStatus (l : LinkIface) : List Byte :=
  u8 l.receiveQueue.length ++ u8 l.responseQueue.length ++ u16 l.errors

/-- The part selector, for a requesting link. -/
def State.partStatus (s : State) (link : Link) : List Byte :=
  u8 s.msc.mode.code ++ u8 s.msc.image.code ++ u8 s.msc.storeOp.code ++ storeStatus s.scs ++ s.scrollStatus ++
    arbiterStatus s.aua ++ playerStatus s.msc.player ++ linkStatus (s.link link)

/-! ### The port selector (R88) -/

/-- The seven counters of a port, in the order of R76. -/
def counterStatus (c : PortCounters) : List Byte :=
  u16 c.valid ++ u16 c.parity ++ u16 c.framing ++ u16 c.length ++ u16 c.kind ++ u16 c.aborted ++ u16 c.missed

/-- The sample latch: deflection, demand, unit kind and CLAIM-held. -/
def latchStatus (l : Latch) : List Byte :=
  opt u16 l.deflection ++ i16 l.demand ++ opt (fun k => u8 (UnitKind.code k)) l.kind ++ flag l.claim

/-- The state of a port. -/
def HandPort.status (p : HandPort) : List Byte :=
  flag p.enabled ++ u8 p.state.code ++ u8 p.assembler.code ++ counterStatus p.counters ++ u8 p.badRun ++
    u8 p.silence ++ opt u8 p.expected ++ opt (fun k => u8 (UnitKind.code k)) p.lastKind ++ latchStatus p.latch ++
    u8 (edgesCode p.buttons false) ++ flag p.driven

/-! ### The output selector (R158) -/

/-- The state of an output, with the stager's. That window rows and eye row take one byte each is the model's choice (log
entry 13). -/
def outputStatus (o : Output) (w : Stager) : List Byte :=
  flag o.config.enable ++ u8 o.config.framing.code ++ flag o.config.mirror ++ u8 o.sending.isSome.toNat ++
    opt u32 o.lastSent ++ u16 o.packetCounter ++ u16 o.underrun ++ u16 o.late ++ u16 o.collision ++
    u8 w.buffer.isSome.toNat ++ flag w.restage ++ u32 w.sequence ++ u8 w.rows ++ u8 w.eyeRow

/-! ### The commit-entry selector (R141) -/

/-- A queue entry: link, tag, kind, parameters, state, first reserved LID and count, cancel marked, deferred-notice-sent.
That the count takes one byte is the model's choice (log entry 13). -/
def Entry.status (e : Entry) : List Byte :=
  u8 e.link.code ++ [e.tag] ++ editBytes e.edit ++ u8 e.state.code ++ opt u24 e.lids.head? ++ u8 e.lids.length ++
    flag e.cancelMarked ++ flag e.deferredSent

/-- The kind of an edit slot's edit, absent where it is CLOSED (R120). -/
def EditSlot.kind? : EditSlot → Option Nat
  | .closed => none
  | .opened e _ _ => some e.code
  | .copying e _ _ => some e.code

/-- The page line count of an edit slot, absent where it is CLOSED (R120). -/
def EditSlot.count? : EditSlot → Option Nat
  | .closed => none
  | .opened _ n _ => some n
  | .copying _ n _ => some n

/-- The page of an edit slot, absent where it is CLOSED (R120). -/
def EditSlot.page? : EditSlot → Option Page
  | .closed => none
  | .opened _ _ page => some page
  | .copying _ _ page => some page

/-- An edit slot: its state, and its kind, n and set of written page slots, each behind a presence byte since it is absent
in CLOSED (R141, R183). -/
def EditSlot.status (x : EditSlot) : List Byte :=
  u8 x.code ++ opt u8 x.kind? ++ opt u16 x.count? ++ opt pageSet x.page?

/-- The queue, the two slots and the guard sizes (R141). That the number of entries is the list's count byte, written once,
that the slots stand console then rundown with no count byte, and that guard above and guard below take one byte each, is
the model's choice (log entry 13). -/
def EditEngine.status (ed : EditEngine) : List Byte :=
  listOf Entry.status ed.queue ++ ed.consoleSlot.status ++ ed.rundownSlot.status ++ u8 ed.guardAbove ++
    u8 ed.guardBelow

/-! ### The timebase selector (R118) -/

/-- The state of the timebase and pace block. The four cue timers stand in slot order with no count byte, and the nominal
rate takes one byte (log entry 13). -/
def Timebase.status (t : Timebase) : List Byte :=
  flag t.refSelect ++ u8 t.rate.code ++ u8 t.state.code ++ u16 t.glitches ++ u32 t.clock ++ flag t.running ++
    t.timers.toList.flatMap timerData ++ u8 t.autoMode.code ++ u16 t.constant ++ u16 t.paceMin ++ u16 t.paceMax

/-- What STAT returns for a selector and index; none for an unknown selector or an index outside its set (R180). -/
def State.status? (s : State) (link : Link) (selector : Nat) (index : Option Nat) : Option (List Byte) :=
  match selector, index with
  | 0, none => some (s.partStatus link)
  | 1, some i => (portOf? i).map (fun n => (s.port n).status)
  | 2, some i => (outputOfCode? i).map (fun o => outputStatus (s.out o) s.wst)
  | 3, none => some s.ede.status
  | 4, none => some s.tbp.status
  | _, _ => none

/-- STAT (R180): reading changes nothing. -/
def doStat (link : Link) (selector : Nat) (index : Option Nat) (s : State) : State × Status :=
  match s.status? link selector index with
  | some data => (s, .ok data)
  | none => (s, .badRequest)

end Sys2Proof.Machine
end

