-- ==== Sys2Proof/Machine/Links.lean ====
section
/-! DEFINITION. The link interfaces, CLI and RLI: receiving (R171), the queues (R172), execution (R173 to R175), notice
enables (R178) and the outgoing line (R177); with the meanings of LINK_FRAME_RECEIVED, INTER_BYTE_TIMEOUT,
REQUEST_EXECUTION, LINK_SEND_START and LINK_SEND_COMPLETION. -/

namespace Sys2Proof.Machine

/-! ### Notice enables (R178) -/

/-- The kind numbers of a table (R176). -/
def tableKinds (t : List NoticeEntry) : List Nat := t.map (fun e => e.kind.number)

/-- One enable written; pending flag, count and detail stand (R178). -/
def writeEnable (t : List NoticeEntry) (p : Nat × Bool) : List NoticeEntry :=
  t.map fun e => if e.kind.number = p.1 then { e with enabled := p.2 } else e

/-- NTEN (R178): the data are every enable of the table after the request, with no count byte (log entry 13). -/
def doNten (link : Link) (pairs : List (Nat × Bool)) (s : State) : State × Status :=
  let l := s.link link
  if 1 ≤ pairs.length ∧ pairs.length ≤ 14 ∧ pairs.all (fun p => (tableKinds l.notices).contains p.1) then
    let t := pairs.foldl writeEnable l.notices
    (s.setLink link { l with notices := t }, .ok (t.flatMap (fun e => flag e.enabled)))
  else (s, .badRequest)

/-! ### Execution (R173 to R175) -/

/-- The requests the rundown link may send (R175). -/
def rundownPermitted : Mnem → Bool
  | .eopn | .elin | .eabn | .ecmt | .qcan | .tgts | .rdln | .rdrn | .stat | .nten => true
  | _ => false

/-- A request answered in its request event. -/
def answered (x : State × Status) : Answer := (x.1, some x.2)

/-- A request handed to its owning block (R173 step 4). -/
def serve (link : Link) (tag : Byte) (r : Request) (s : State) : Answer :=
  match r with
  | .rdln lid c => doRdln link tag lid c s
  | .rdrn p => doRdrn link tag p s
  | .clrs => answered (doClrs s)
  | .mspd v => answered (doMspd v s)
  | .frze => answered (doFrze s)
  | .thaw => answered (doThaw s)
  | .rels => answered (doRels s)
  | .jump k p => answered (doJump link k p s)
  | .lock n => answered (doLock n s)
  | .free => answered (doFree s)
  | .srcs n e p => answered (doSrcs n e p s)
  | .thrs v => answered (doThrs v s)
  | .parm n i v => answered (doParm n i v s)
  | .pget n i => answered (doPget n i s)
  | .crvw p f vs => answered (doCrvw p f vs s)
  | .crvr p => answered (doCrvr p s)
  | .cntr p => answered (doCntr link p s)
  | .clkc a v => answered (doClkc a v s)
  | .cuea k c => answered (doCuea k c s)
  | .cued k => answered (doCued k s)
  | .amod m c => answered (doAmod m c s)
  | .eopn e n => answered (doEopn link e n s)
  | .elin k st m c tx => answered (doElin link k st m c tx s)
  | .eabn => answered (doEabn link s)
  | .ecmt => answered (doEcmt link tag s)
  | .qcan l t => answered (doQcan link l t s)
  | .qfrc l t => answered (doQfrc link l t s)
  | .slck e lo hi c r st u => answered (doSlck link e ⟨lo, hi, c, r, st, u⟩ s)
  | .tgts n v => answered (doTgts link n v s)
  | .rfsl => answered (doRfsl s)
  | .stat k i => answered (doStat link k i s)
  | .mode m => answered (doMode link m s)
  | .save => answered (doSave s)
  | .load => answered (doLoad s)
  | .dgld f es n => answered (doDgld f es n s)
  | .dgrn a lo => answered (doDgrn link a lo s)
  | .nten ps => answered (doNten link ps s)

/-- Steps 2 to 4 of R173 for a known mnemonic, in order: BUSY in LOADING but for STAT, NOT_PERMITTED outside the rundown
link's set, BAD_REQUEST where the payload spells no request, and the owning block. That a payload too short or with bytes
left over is answered BAD_REQUEST (R183) also for an ELIN or ECMT while no edit is open, whose owner puts NO_EDIT before
its other tests (R122, R124), is the model's choice (log entry 32). -/
def judge (link : Link) (tag : Byte) (m : Mnem) (r : Option Request) (s : State) : Answer :=
  if s.msc.mode = .loading ∧ m ≠ .stat then (s, some .busy)
  else if link = .rundown ∧ rundownPermitted m = false then (s, some .notPermitted)
  else
    match r with
    | some req => if req.wellFormed then serve link tag req s else (s, some .badRequest)
    | none => (s, some .badRequest)

/-- The answer of a request joins the response queue in the request event; a read answers at its completion (R173). -/
def State.answer (link : Link) (tag : Byte) (mnem : List Byte) (a : Answer) : State :=
  match a.2 with
  | some status => a.1.respond link tag mnem status
  | none => a.1

/-- A request of a known mnemonic executed on a link (R173). -/
def State.deliver (s : State) (link : Link) (tag : Byte) (m : Mnem) (r : Option Request) : State :=
  State.answer link tag m.bytes (judge link tag m r s)

/-- A frame taken for execution: an unknown mnemonic is answered BAD_REQUEST (R173 step 1). -/
def State.executeFrame (s : State) (link : Link) (f : RequestFrame) : State :=
  match mnemOf? f.mnem with
  | none => s.respond link f.tag f.mnem .badRequest
  | some m => s.deliver link f.tag m (parseRequest m f.payload)

/-- The head of a link's receive queue taken for execution, where the interface can take one (R173). -/
def State.executeNext (s : State) (link : Link) : State :=
  match (s.link link).receiveQueue with
  | [] => s
  | f :: rest =>
    if (s.link link).canExecute then (s.setLink link { s.link link with receiveQueue := rest }).executeFrame link f
    else s

/-- REQUEST_EXECUTION (R173): an interface that cannot take a request leaves everything as it is (log entry 5). -/
def execRequestExecution (link : Link) (instant : Nat) (s : State) : Host.Outcome State Fault Refusal :=
  finish ((s.reach instant).executeNext link)

/-! ### Receiving (R171, R172) -/

/-- The link error counter counts one (R171, R172). -/
def LinkIface.countError (l : LinkIface) : LinkIface := { l with errors := bump l.errors }

/-- A request frame offered to the receive queue: it joins, or is answered BUSY at once, or is discarded and counted (R172). -/
def LinkIface.offer (l : LinkIface) (f : RequestFrame) : LinkIface :=
  if l.receiveQueue.length < Config.receiveQueueMax then { l with receiveQueue := l.receiveQueue ++ [f] }
  else if l.responsePlaces < Config.responseQueueMax then
    { l with responseQueue := l.responseQueue ++ [{ tag := f.tag, mnem := f.mnem, status := .busy }] }
  else l.countError

/-- One byte on a link's incoming line (R171): a discard is counted, a whole request frame is offered to the queue. -/
def LinkIface.takeByte (l : LinkIface) (b : Byte) : LinkIface :=
  match receiveByte l.receiver b with
  | .more r => { l with receiver := r }
  | .discard => { l with receiver := .hunting }.countError
  | .frame f => { l with receiver := .hunting }.offer f

/-- LINK_FRAME_RECEIVED (R171, R172): bytes arrive on a link's incoming line. That bytes which end several frames are taken
as one event, with no send between the last bytes of two frames, is the model's choice (log entry 33). -/
def execLinkFrameReceived (link : Link) (bytes : List Byte) (s : State) : Host.Outcome State Fault Refusal :=
  finish (s.setLink link (bytes.foldl LinkIface.takeByte (s.link link)))

/-- More than 20 ms without a byte: a frame being assembled is discarded and counted; a hunting receiver discards nothing
(R171). -/
def LinkIface.byteTimeout (l : LinkIface) : LinkIface :=
  match l.receiver with
  | .hunting => l
  | .assembling _ => { l with receiver := .hunting }.countError

/-- INTER_BYTE_TIMEOUT (R171). -/
def execInterByteTimeout (link : Link) (s : State) : Host.Outcome State Fault Refusal :=
  finish (s.setLink link (s.link link).byteTimeout)

/-! ### The outgoing line (R177) -/

/-- LINK_SEND_START (R177): on an idle line the response at the head of the queue, else the pending enabled entry of lowest
kind; where the send has already started at the end of the event that gave cause for it, nothing is left to do (log entry
7). -/
def execLinkSendStart (link : Link) (s : State) : Host.Outcome State Fault Refusal :=
  finish (s.setLink link (s.link link).pump)

/-- LINK_SEND_COMPLETION (R177): the line is idle, and the next frame is chosen. -/
def execLinkSendCompletion (link : Link) (s : State) : Host.Outcome State Fault Refusal :=
  finish (s.setLink link { s.link link with line := none })

/-! ### Requests as commands -/

/-- The frame of a request; operands no frame has room for give a payload that spells no request (R183, log entry 6). -/
def frameOf (tag : Byte) (r : Request) : RequestFrame :=
  if r.wellFormed then requestFrame tag r else { tag := tag, mnem := r.mnem.bytes, payload := [] }

/-- The link can execute an arriving request at once: nothing waits before it, the interface is ready and the response queue
has room (R173). -/
def LinkIface.free (l : LinkIface) : Bool := l.receiveQueue.isEmpty && l.canExecute

/-- A request frame arrives whole on a link: it is executed at once where nothing waits before it, else it is offered to the
receive queue and waits for its REQUEST_EXECUTION (R172, R173, log entry 6). -/
def State.takeRequest (s : State) (link : Link) (tag : Byte) (r : Request) : State :=
  if (s.link link).free then s.deliver link tag r.mnem (some r)
  else s.setLink link ((s.link link).offer (frameOf tag r))

end Sys2Proof.Machine
end

