-- ==== Sys2Proof/Machine/Requests.lean ====
section
/-! DEFINITION. The meanings of the requests, one for each row. A request arrives on a link with its tag, is executed at once
or waits in the link's receive queue (R172, R173), and its owner does what its rule gives; the owners' parts stand in the
files of their blocks. -/

namespace Sys2Proof.Machine

/-- RDLN (R17): reads lines in reading order. -/
def execRdln (link : Link) (tag : Byte) (lid count : Nat) (s : State) : Host.Outcome State Fault Refusal :=
  finish (s.takeRequest link tag (.rdln lid count))

/-- RDRN (R18): reads a page of the rundown. -/
def execRdrn (link : Link) (tag : Byte) (page : Nat) (s : State) : Host.Outcome State Fault Refusal :=
  finish (s.takeRequest link tag (.rdrn page))

/-- CLRS (R181): clears the show. -/
def execClrs (link : Link) (tag : Byte) (s : State) : Host.Outcome State Fault Refusal :=
  finish (s.takeRequest link tag .clrs)

/-- MSPD (R36): sets the console manual speed. -/
def execMspd (link : Link) (tag : Byte) (speed : Int) (s : State) : Host.Outcome State Fault Refusal :=
  finish (s.takeRequest link tag (.mspd speed))

/-- FRZE (R37): toggles FROZEN. -/
def execFrze (link : Link) (tag : Byte) (s : State) : Host.Outcome State Fault Refusal :=
  finish (s.takeRequest link tag .frze)

/-- THAW (R38): ends FROZEN. -/
def execThaw (link : Link) (tag : Byte) (s : State) : Host.Outcome State Fault Refusal :=
  finish (s.takeRequest link tag .thaw)

/-- RELS (R39): releases HELD. -/
def execRels (link : Link) (tag : Byte) (s : State) : Host.Outcome State Fault Refusal :=
  finish (s.takeRequest link tag .rels)

/-- JUMP (R40): places a jump. -/
def execJump (link : Link) (tag : Byte) (target param : Nat) (s : State) : Host.Outcome State Fault Refusal :=
  finish (s.takeRequest link tag (.jump target param))

/-- LOCK (R64): locks a source. -/
def execLock (link : Link) (tag : Byte) (source : Nat) (s : State) : Host.Outcome State Fault Refusal :=
  finish (s.takeRequest link tag (.lock source))

/-- FREE (R65): ends the lock. -/
def execFree (link : Link) (tag : Byte) (s : State) : Host.Outcome State Fault Refusal :=
  finish (s.takeRequest link tag .free)

/-- SRCS (R66): writes a source entry. -/
def execSrcs (link : Link) (tag : Byte) (source : Nat) (enable : Bool) (priority : Nat) (s : State) :
    Host.Outcome State Fault Refusal :=
  finish (s.takeRequest link tag (.srcs source enable priority))

/-- THRS (R67): writes the threshold. -/
def execThrs (link : Link) (tag : Byte) (value : Nat) (s : State) : Host.Outcome State Fault Refusal :=
  finish (s.takeRequest link tag (.thrs value))

/-- PARM (R179): writes a named parameter. -/
def execParm (link : Link) (tag : Byte) (name : Nat) (index : Option Nat) (value instant : Nat) (s : State) :
    Host.Outcome State Fault Refusal :=
  finish ((s.reach instant).takeRequest link tag (.parm name index value))

/-- PGET (R179): reads a named parameter. -/
def execPget (link : Link) (tag : Byte) (name : Nat) (index : Option Nat) (s : State) :
    Host.Outcome State Fault Refusal :=
  finish (s.takeRequest link tag (.pget name index))

/-- CRVW (R100): writes curve points. -/
def execCrvw (link : Link) (tag : Byte) (port first : Nat) (values : List Nat) (s : State) :
    Host.Outcome State Fault Refusal :=
  finish (s.takeRequest link tag (.crvw port first values))

/-- CRVR (R101): reads a curve. -/
def execCrvr (link : Link) (tag : Byte) (port : Nat) (s : State) : Host.Outcome State Fault Refusal :=
  finish (s.takeRequest link tag (.crvr port))

/-- CNTR (R102): sets a port's centre. -/
def execCntr (link : Link) (tag : Byte) (port : Nat) (s : State) : Host.Outcome State Fault Refusal :=
  finish (s.takeRequest link tag (.cntr port))

/-- CLKC (R111): controls the show clock. -/
def execClkc (link : Link) (tag : Byte) (action : Nat) (value : Option Nat) (s : State) :
    Host.Outcome State Fault Refusal :=
  finish (s.takeRequest link tag (.clkc action value))

/-- CUEA (R113): arms a cue timer. -/
def execCuea (link : Link) (tag : Byte) (slot compare : Nat) (s : State) : Host.Outcome State Fault Refusal :=
  finish (s.takeRequest link tag (.cuea slot compare))

/-- CUED (R113): disarms a cue timer. -/
def execCued (link : Link) (tag : Byte) (slot : Nat) (s : State) : Host.Outcome State Fault Refusal :=
  finish (s.takeRequest link tag (.cued slot))

/-- AMOD (R115): sets the auto mode. -/
def execAmod (link : Link) (tag : Byte) (mode : Nat) (constant : Option Nat) (s : State) :
    Host.Outcome State Fault Refusal :=
  finish (s.takeRequest link tag (.amod mode constant))

/-- EOPN (R121): opens an edit. -/
def execEopn (link : Link) (tag : Byte) (edit : Option EditParams) (n : Nat) (s : State) :
    Host.Outcome State Fault Refusal :=
  finish (s.takeRequest link tag (.eopn edit n))

/-- ELIN (R122): writes a page slot. -/
def execElin (link : Link) (tag : Byte) (slot style mark : Nat) (cue : Option Nat) (text : List CharCell) (s : State) :
    Host.Outcome State Fault Refusal :=
  finish (s.takeRequest link tag (.elin slot style mark cue text))

/-- EABN (R123): abandons an edit. -/
def execEabn (link : Link) (tag : Byte) (s : State) : Host.Outcome State Fault Refusal :=
  finish (s.takeRequest link tag .eabn)

/-- ECMT (R124): commits an edit. -/
def execEcmt (link : Link) (tag : Byte) (s : State) : Host.Outcome State Fault Refusal :=
  finish (s.takeRequest link tag .ecmt)

/-- QCAN (R134): cancels a queue entry. -/
def execQcan (link : Link) (tag : Byte) (entryLink entryTag : Nat) (s : State) : Host.Outcome State Fault Refusal :=
  finish (s.takeRequest link tag (.qcan entryLink entryTag))

/-- QFRC (R135): forces a deferred entry. -/
def execQfrc (link : Link) (tag : Byte) (entryLink entryTag : Nat) (s : State) : Host.Outcome State Fault Refusal :=
  finish (s.takeRequest link tag (.qfrc entryLink entryTag))

/-- SLCK (R138): writes a story-lock entry. -/
def execSlck (link : Link) (tag : Byte) (entry low high : Nat) (console rundown sticky inUse : Bool) (s : State) :
    Host.Outcome State Fault Refusal :=
  finish (s.takeRequest link tag (.slck entry low high console rundown sticky inUse))

/-- TGTS (R139): sets a story's target out. -/
def execTgts (link : Link) (tag : Byte) (story : Nat) (target : Option Nat) (s : State) :
    Host.Outcome State Fault Refusal :=
  finish (s.takeRequest link tag (.tgts story target))

/-- RFSL (R140): reads the refusal record. -/
def execRfsl (link : Link) (tag : Byte) (s : State) : Host.Outcome State Fault Refusal :=
  finish (s.takeRequest link tag .rfsl)

/-- STAT (R180): reports the state of a part of the device. -/
def execStat (link : Link) (tag : Byte) (selector : Nat) (index : Option Nat) (s : State) :
    Host.Outcome State Fault Refusal :=
  finish (s.takeRequest link tag (.stat selector index))

/-- MODE (R161): changes the operating mode. -/
def execMode (link : Link) (tag : Byte) (mode : Nat) (s : State) : Host.Outcome State Fault Refusal :=
  finish (s.takeRequest link tag (.mode mode))

/-- SAVE (R166): starts a save. -/
def execSave (link : Link) (tag : Byte) (s : State) : Host.Outcome State Fault Refusal :=
  finish (s.takeRequest link tag .save)

/-- LOAD (R167): starts a load. -/
def execLoad (link : Link) (tag : Byte) (s : State) : Host.Outcome State Fault Refusal :=
  finish (s.takeRequest link tag .load)

/-- DGLD (R168): writes the player's table. -/
def execDgld (link : Link) (tag : Byte) (first : Nat) (entries : List PlayerArg) (length : Nat) (s : State) :
    Host.Outcome State Fault Refusal :=
  finish (s.takeRequest link tag (.dgld first entries length))

/-- DGRN (R169): starts or stops the player. -/
def execDgrn (link : Link) (tag : Byte) (action : Nat) (loop : Option Bool) (s : State) :
    Host.Outcome State Fault Refusal :=
  finish (s.takeRequest link tag (.dgrn action loop))

/-- NTEN (R178): writes notice enables. -/
def execNten (link : Link) (tag : Byte) (pairs : List (Nat × Bool)) (s : State) : Host.Outcome State Fault Refusal :=
  finish (s.takeRequest link tag (.nten pairs))

end Sys2Proof.Machine
end

