-- ==== Sys2Proof/Machine/Dispatch.lean ====
section
/-! DEFINITION. The dispatch: one arm per command, each one direct call of its meaning. -/

namespace Sys2Proof.Machine

def exec (i : Instr) (s : State) : Host.Outcome State Fault Refusal :=
  match i with
  | .resetLine written => Sys2Proof.Machine.execResetLine written s
  | .resetRelease instant => Sys2Proof.Machine.execResetRelease instant s
  | .loadCompletion instant image => Sys2Proof.Machine.execLoadCompletion instant image s
  | .settingsLoadTimeout instant => Sys2Proof.Machine.execSettingsLoadTimeout instant s
  | .saveCompletion readBack => Sys2Proof.Machine.execSaveCompletion readBack s
  | .saveTimeout written => Sys2Proof.Machine.execSaveTimeout written s
  | .referenceEdge instant => Sys2Proof.Machine.execReferenceEdge instant s
  | .internalTick => Sys2Proof.Machine.execInternalTick s
  | .referenceLoss => Sys2Proof.Machine.execReferenceLoss s
  | .scrollStep => Sys2Proof.Machine.execScrollStep s
  | .arbiterTick => Sys2Proof.Machine.execArbiterTick s
  | .holdOverExpiry => Sys2Proof.Machine.execHoldOverExpiry s
  | .portTick port => Sys2Proof.Machine.execPortTick port s
  | .portSilenceExpiry port => Sys2Proof.Machine.execPortSilenceExpiry port s
  | .handWord port word => Sys2Proof.Machine.execHandWord port word s
  | .showTimeTick => Sys2Proof.Machine.execShowTimeTick s
  | .cueTimer slot => Sys2Proof.Machine.execCueTimer slot s
  | .playerTick => Sys2Proof.Machine.execPlayerTick s
  | .copyCompletion link => Sys2Proof.Machine.execCopyCompletion link s
  | .queuePass => Sys2Proof.Machine.execQueuePass s
  | .stagingCompletion => Sys2Proof.Machine.execStagingCompletion s
  | .outputTick out => Sys2Proof.Machine.execOutputTick out s
  | .frameSyncRequest out => Sys2Proof.Machine.execFrameSyncRequest out s
  | .packetSendCompletion out => Sys2Proof.Machine.execPacketSendCompletion out s
  | .linkFrameReceived link bytes => Sys2Proof.Machine.execLinkFrameReceived link bytes s
  | .interByteTimeout link => Sys2Proof.Machine.execInterByteTimeout link s
  | .requestExecution link instant => Sys2Proof.Machine.execRequestExecution link instant s
  | .linkSendStart link => Sys2Proof.Machine.execLinkSendStart link s
  | .linkSendCompletion link => Sys2Proof.Machine.execLinkSendCompletion link s
  | .rdln link tag lid count => Sys2Proof.Machine.execRdln link tag lid count s
  | .rdlnCompletion link => Sys2Proof.Machine.execRdlnCompletion link s
  | .rdrn link tag page => Sys2Proof.Machine.execRdrn link tag page s
  | .rdrnCompletion link => Sys2Proof.Machine.execRdrnCompletion link s
  | .clrs link tag => Sys2Proof.Machine.execClrs link tag s
  | .mspd link tag speed => Sys2Proof.Machine.execMspd link tag speed s
  | .frze link tag => Sys2Proof.Machine.execFrze link tag s
  | .thaw link tag => Sys2Proof.Machine.execThaw link tag s
  | .rels link tag => Sys2Proof.Machine.execRels link tag s
  | .jump link tag target param => Sys2Proof.Machine.execJump link tag target param s
  | .lock link tag source => Sys2Proof.Machine.execLock link tag source s
  | .free link tag => Sys2Proof.Machine.execFree link tag s
  | .srcs link tag source enable priority => Sys2Proof.Machine.execSrcs link tag source enable priority s
  | .thrs link tag value => Sys2Proof.Machine.execThrs link tag value s
  | .parm link tag name index value instant => Sys2Proof.Machine.execParm link tag name index value instant s
  | .pget link tag name index => Sys2Proof.Machine.execPget link tag name index s
  | .crvw link tag port first values => Sys2Proof.Machine.execCrvw link tag port first values s
  | .crvr link tag port => Sys2Proof.Machine.execCrvr link tag port s
  | .cntr link tag port => Sys2Proof.Machine.execCntr link tag port s
  | .clkc link tag action value => Sys2Proof.Machine.execClkc link tag action value s
  | .cuea link tag slot compare => Sys2Proof.Machine.execCuea link tag slot compare s
  | .cued link tag slot => Sys2Proof.Machine.execCued link tag slot s
  | .amod link tag mode constant => Sys2Proof.Machine.execAmod link tag mode constant s
  | .eopn link tag edit n => Sys2Proof.Machine.execEopn link tag edit n s
  | .elin link tag slot style mark cue text => Sys2Proof.Machine.execElin link tag slot style mark cue text s
  | .eabn link tag => Sys2Proof.Machine.execEabn link tag s
  | .ecmt link tag => Sys2Proof.Machine.execEcmt link tag s
  | .qcan link tag entryLink entryTag => Sys2Proof.Machine.execQcan link tag entryLink entryTag s
  | .qfrc link tag entryLink entryTag => Sys2Proof.Machine.execQfrc link tag entryLink entryTag s
  | .slck link tag entry low high console rundown sticky inUse => Sys2Proof.Machine.execSlck link tag entry low high console rundown sticky inUse s
  | .tgts link tag story target => Sys2Proof.Machine.execTgts link tag story target s
  | .rfsl link tag => Sys2Proof.Machine.execRfsl link tag s
  | .stat link tag selector index => Sys2Proof.Machine.execStat link tag selector index s
  | .mode link tag mode => Sys2Proof.Machine.execMode link tag mode s
  | .save link tag => Sys2Proof.Machine.execSave link tag s
  | .load link tag => Sys2Proof.Machine.execLoad link tag s
  | .dgld link tag first entries length => Sys2Proof.Machine.execDgld link tag first entries length s
  | .dgrn link tag action loop => Sys2Proof.Machine.execDgrn link tag action loop s
  | .nten link tag pairs => Sys2Proof.Machine.execNten link tag pairs s

end Sys2Proof.Machine
end

