-- ==== Sys2Proof/Safety.lean ====
section
/-! DEFINITION. What counts as a safe run, in the terms the statements use: which blocks a command leaves alone, what a
link receives for its request, and the conditions that hold of every state a run reaches. -/

namespace Sys2Proof.Machine

/-! ### Frames -/

/-- The parts of the state, block by block. -/
inductive Block where
  | msc | scs | ede | ports | dsh | aua | sce | tbp | wst | loa | lob | cli | rli | due | mem | pending
deriving DecidableEq, Repr

/-- Two states agree on a block. -/
def Block.same : Block → State → State → Prop
  | .msc, s, t => t.msc = s.msc
  | .scs, s, t => t.scs = s.scs
  | .ede, s, t => t.ede = s.ede
  | .ports, s, t => t.ports = s.ports
  | .dsh, s, t => t.dsh = s.dsh
  | .aua, s, t => t.aua = s.aua
  | .sce, s, t => t.sce = s.sce
  | .tbp, s, t => t.tbp = s.tbp
  | .wst, s, t => t.wst = s.wst
  | .loa, s, t => t.loa = s.loa
  | .lob, s, t => t.lob = s.lob
  | .cli, s, t => t.cli = s.cli
  | .rli, s, t => t.rli = s.rli
  | .due, s, t => t.due = s.due
  | .mem, s, t => t.mem = s.mem
  | .pending, s, t => t.pending = s.pending

/-- The frame of an event: every block outside the list is left as it was. -/
def SameBut (changed : List Block) (s t : State) : Prop := ∀ b, b ∉ changed → b.same s t

/-- The block of a link interface. -/
def linkBlock : Link → Block
  | .console => .cli
  | .rundown => .rli

/-- The block of a line output. -/
def outBlock : OutputId → Block
  | .a => .loa
  | .b => .lob

/-! ### Answers -/

/-- A link interface once a response has joined its response queue and its notice table has become `notices`, with the
send this starts on an idle line (R173, R177). -/
def linkAfter (l : LinkIface) (notices : List NoticeEntry) (r : Response) : LinkIface :=
  { l with notices := notices, responseQueue := l.responseQueue ++ [r] }.pump

/-- A link interface that keeps everything but gains a response (R173). -/
def answeredWith (l : LinkIface) (tag : Byte) (m : Mnem) (status : Status) : LinkIface :=
  linkAfter l l.notices { tag := tag, mnem := m.bytes, status := status }

/-- A request on the console link is handed to its owner at once: nothing waits before it, the interface is ready, the
response queue has room, and the mode is not LOADING (R173). -/
def State.consoleReady (s : State) : Bool := s.cli.free && s.msc.mode ≠ .loading

/-- A request of the rundown link's permitted set is handed to its owner at once (R173, R175). -/
def State.linkReady (s : State) (link : Link) : Bool := (s.link link).free && s.msc.mode ≠ .loading

/-- Nothing is left to send on an idle line (R177): no step leaves a line idle with something to send. -/
def State.settled (s : State) : Bool := s.settle = s

/-- The frames a link interface has still to finish sending as responses: the one on its line, then those queued, in order
(R177). -/
def LinkIface.outbox (l : LinkIface) : List LinkFrame :=
  l.line.toList ++ l.responseQueue.map (·.frame)

/-- The last frame due on a link's line is the response with a tag, a mnemonic and a status (R174). -/
def LinkIface.lastAnswers (l : LinkIface) (tag : Byte) (m : Mnem) (status : Status) : Prop :=
  l.outbox.getLast? = some (Response.frame { tag := tag, mnem := m.bytes, status := status })

/-- The console notice table once a change of holder to `h` has raised AUTHORITY_CHANGED; unchanged where the holder is kept
(R62). -/
def State.tallyNotices (s : State) (h : Option Source) : List NoticeEntry :=
  if h = s.aua.holder then s.cli.notices else raiseIn s.cli.notices .authorityChanged (.holder h)

/-- A link interface once its notice table has become `notices`, with the send this starts on an idle line (R177). -/
def LinkIface.tabled (l : LinkIface) (notices : List NoticeEntry) : LinkIface :=
  { l with notices := notices }.pump

/-- A link interface has a kind raised with a detail, the latest of the kind: the entry is pending with a count of one or
more, or its notice has gone onto the line (R176, R177). -/
def LinkIface.reports (l : LinkIface) (k : NoticeKind) (d : NoticeDetail) : Prop :=
  ∀ e ∈ l.notices, e.kind = k → e.detail = some d ∧
    ((e.pending = true ∧ 1 ≤ e.count) ∨ ∃ n, 1 ≤ n ∧ l.line = some { e with count := n }.frame)

/-- The rundown link's notice table once a commit notice of an entry of `entryLink` has been raised: it takes the raise of
its own entries only (R133). -/
def State.ownCommit (s : State) (k : NoticeKind) (entryLink : Link) (tag : Byte) (cause : Option Cause) :
    List NoticeEntry :=
  if entryLink = .rundown then raiseIn s.rli.notices k (.commit entryLink tag cause) else s.rli.notices

/-- The event raised one commit notice on the tables that carry it, and nothing else on them (R133). -/
def CommitReported (k : NoticeKind) (e : Entry) (cause : Option Cause) (s t : State) : Prop :=
  t.cli = s.cli.tabled (raiseIn s.cli.notices k (.commit e.link e.tag cause)) ∧
    t.rli = s.rli.tabled (s.ownCommit k e.link e.tag cause)

/-! ### Conditions kept by every step -/

/-- The settings memory is in canonical form. -/
def State.memoryOk (s : State) : Bool := memWf s.mem

/-- The queues of one link interface are within their places, a place held for a read counted (R172, R173). -/
def LinkIface.queuesOk (l : LinkIface) : Bool :=
  l.receiveQueue.length ≤ Config.receiveQueueMax && l.responsePlaces ≤ Config.responseQueueMax

/-- The queues of the part are within their places (R127, R172). -/
def State.queuesOk (s : State) : Bool :=
  s.ede.queue.length ≤ Config.commitQueueMax && s.cli.queuesOk && s.rli.queuesOk

/-- The line slots not free fit in the pool, and the LID counter lies in 1..16,777,216 (R1, R3). -/
def State.poolOk (s : State) : Bool :=
  s.scs.pool.length ≤ Config.poolSlots && 1 ≤ s.scs.nextLid && s.scs.nextLid ≤ Config.lidMax + 1

/-- Stories: no number twice, at most 256, none of more than 2,048 lines, and no line twice in the reading order (R6, R7). -/
def Store.rundownOk (st : Store) : Bool :=
  decide (st.rundown.map (·.number)).Nodup && st.rundown.length ≤ Config.storiesMax &&
    st.rundown.all (·.lines.length ≤ Config.storyLinesMax) && decide st.order.Nodup

/-- Lines: LIDs rise through the pool and lie below the LID counter, a line in use lies in the list of the story it names, and
every line listed is a line in use that names the story (R3, R6). -/
def Store.linesOk (st : Store) : Bool :=
  decide ((st.pool.map (·.lid)).Pairwise (· < ·)) && st.pool.all (fun l => 1 ≤ l.lid && l.lid < st.nextLid) &&
    st.pool.all (fun l => l.story.all fun n => st.rundown.any fun x => x.number = n && x.lines.contains l.lid) &&
    st.rundown.all (fun x => x.lines.all fun lid => st.pool.any fun l => l.lid = lid && l.story = some x.number)

/-- The page line count of an edit slot lies in the range for its kind (R121). -/
def EditSlot.countOk : EditSlot → Bool
  | .closed => true
  | .opened e n _ => countInRange e n
  | .copying e n _ => countInRange e n

/-- The commit queue and its lines: no link and tag twice, as many lines for an entry as its kind may have, and the reserved
lines are those of the entries, each of one entry only (R1, R3, R127). -/
def State.reservedOk (s : State) : Bool :=
  decide (s.ede.queue.map fun e => (e.link, e.tag)).Nodup &&
    s.ede.queue.all (fun e => countInRange e.edit e.lids.length) && s.ede.consoleSlot.countOk &&
    s.ede.rundownSlot.countOk && decide (s.ede.queue.flatMap (·.lids)).Nodup &&
    (s.ede.queue.flatMap (·.lids)).all (fun lid => s.scs.pool.any fun l => l.lid = lid && l.story.isNone) &&
    s.scs.pool.all (fun l => l.story.isSome || (s.ede.queue.flatMap (·.lids)).contains l.lid)

/-- The edits that the entries of a link in COPYING copy from its slot, with their line counts: the slot's own where the slot
is COPYING, none where it is not (R120, R126). -/
def EditSlot.copies : EditSlot → List (EditParams × Nat)
  | .copying e n _ => [(e, n)]
  | _ => []

/-- A link's slot is COPYING exactly while one entry of the link is (R120, R126, R128). -/
def State.copyingOk (s : State) : Bool :=
  [Link.console, .rundown].all fun link =>
    (s.ede.queue.filter fun e => e.link = link && e.state = .copying).map (fun e => (e.edit, e.lids.length)) =
      (s.slot link).copies

/-- The script store, the commit queue and the edit slots agree (R1, R3, R6, R7, R120, R127). -/
def State.storeOk (s : State) : Bool := s.scs.rundownOk && s.scs.linesOk && s.reservedOk && s.copyingOk

/-- The reading position: the anchor is a line in use, and empty exactly where the script holds no line; the fraction is below
a line's 4,096 units, and 0 with an empty anchor and on the last line; the current story is the anchor's (R21, R22). -/
def State.anchorOk (s : State) : Bool :=
  (s.sce.anchor.isNone == s.scs.order.isEmpty) && s.sce.anchor.all (fun lid => s.scs.order.contains lid) &&
    s.sce.fraction < Config.unitsPerLine &&
    (s.sce.anchor ≠ s.scs.order.getLast? || s.sce.fraction = 0) &&
    s.sce.currentStory = s.sce.anchor.bind s.scs.storyOfLine?

/-- The velocity is 0 whenever the state is FROZEN or HELD, the anchor is empty, or the mode is SETUP or LOADING (R24). -/
def State.stillOk (s : State) : Bool :=
  !(s.sce.state ≠ .running || s.sce.anchor.isNone || s.msc.mode.suspended) || s.sce.velocity = 0

/-- The holder where no lock is in force, outside SETUP and LOADING: none, or an eligible source; hold-over is in progress
exactly when it is inactive, and the count is 0 outside hold-over (R55, R59). -/
def State.unlockedOk (s : State) : Bool :=
  match s.aua.holder with
  | none => !s.aua.inHoldOver && s.aua.count = 0
  | some h => s.eligible h && (s.aua.inHoldOver == !s.active h) && (s.aua.inHoldOver || s.aua.count = 0)

/-- What the arbiter holds agrees with the inputs it is decided from (R55, R56, R59). -/
def State.authorityOk (s : State) : Bool :=
  if s.msc.mode.suspended then s.aua.holder = none && !s.aua.inHoldOver && s.aua.count = 0
  else
    match s.aua.lock with
    | some l => s.aua.holder = some l && !s.aua.inHoldOver && s.aua.count = 0
    | none => s.unlockedOk

/-! ### Ranges -/

/-- A demand, speed or velocity within −16,384..+16,384 (R24). -/
def speedOk (v : Int) : Bool := v.natAbs ≤ Config.speedMax

/-- The shaping parameters within their ranges (R90). -/
def Shaping.ok (p : Shaping) : Bool :=
  p.centre ≤ 4095 && p.deadband ≤ 255 && p.curve.length = 33 && p.curve.all (· ≤ Config.speedMax)

/-- The words an assembler holds within their ranges (R71). -/
def Assembler.ok : Assembler → Bool
  | .idle => true
  | .open1 _ seq => seq ≤ 63
  | .open2 _ seq d => seq ≤ 63 && d ≤ 4095
  | .hunt => true

/-- The counters of a port within 0..65,535 (R76). -/
def PortCounters.ok (c : PortCounters) : Bool :=
  c.valid ≤ Config.counterMax && c.parity ≤ Config.counterMax && c.framing ≤ Config.counterMax &&
    c.length ≤ Config.counterMax && c.kind ≤ Config.counterMax && c.aborted ≤ Config.counterMax &&
    c.missed ≤ Config.counterMax

/-- A hand port within its ranges: counters (R76), bad run (R76), silence count (R78), expected number (R79), latch (R83). -/
def HandPort.ok (p : HandPort) : Bool :=
  p.counters.ok && p.assembler.ok && p.badRun ≤ Config.badRunMax && p.silence < Config.silenceMax &&
    p.expected.all (· ≤ 63) && p.latch.deflection.all (· ≤ 4095) && speedOk p.latch.demand

/-- An entry of the player's table within its ranges (R168). -/
def PlayerEntry.ok (e : PlayerEntry) : Bool := e.deflection ≤ 4095 && 1 ≤ e.duration && e.duration ≤ 255

/-- The player within its ranges (R168, R169). -/
def Player.ok (p : Player) : Bool :=
  p.table.length = 256 && p.table.all (·.ok) && p.length ≤ 256 && p.remaining ≤ 255

/-- The hand side within its ranges: shaping parameters, ports and player. -/
def State.handOk (s : State) : Bool :=
  s.dsh.toList.all (·.ok) && s.ports.toList.all (·.ok) && s.msc.player.ok

/-- The speeds the auto source and the console offer within their ranges, the pace maximum at or above the minimum (R36,
R116). -/
def State.offersOk (s : State) : Bool :=
  speedOk s.sce.manualSpeed && s.tbp.constant ≤ Config.speedMax && s.tbp.paceMin ≤ s.tbp.paceMax &&
    s.tbp.paceMax ≤ Config.speedMax

/-- The scroll engine within its ranges: fraction, velocity and slew limits (R21, R24, R35). -/
def ScrollEngine.ok (e : ScrollEngine) : Bool :=
  e.fraction < Config.unitsPerLine && speedOk e.velocity && 1 ≤ e.accel && e.accel ≤ 4096 && 1 ≤ e.decel &&
    e.decel ≤ 4096

/-- The scroll engine and the speeds offered to it within their ranges. -/
def State.scrollOk (s : State) : Bool := s.sce.ok && s.offersOk

/-- A source entry within its range (R51). -/
def SourceEntry.ok (e : SourceEntry) : Bool := e.priority ≤ 15

/-- The arbiter's numbers within their ranges (R51, R52, R55, R69). -/
def Arbiter.ok (a : Arbiter) : Bool :=
  a.console.ok && a.hand.toList.all (·.ok) && a.auto.ok && a.threshold ≤ 15 && a.count ≤ 255 &&
    a.holdOverValue ≤ 255

/-- A story-lock entry within its ranges (R137). -/
def LockEntry.ok (e : LockEntry) : Bool := 1 ≤ e.low && e.low ≤ e.high && e.high ≤ 65535

/-- The edit engine's parameters and lock table within their ranges (R130, R137). -/
def EditEngine.ok (ed : EditEngine) : Bool :=
  ed.guardAbove ≤ 16 && ed.guardBelow ≤ 32 && ed.locks.length = 8 && ed.locks.all (·.ok)

/-- The stager's geometry and sequence within their ranges (R144, R147). -/
def Stager.ok (w : Stager) : Bool :=
  1 ≤ w.rows && w.rows ≤ 24 && w.eyeRow < w.rows && w.sequence ≤ Config.clockMax

/-- An output's counters within 0..65,535 (R155, R157). -/
def Output.ok (o : Output) : Bool :=
  o.packetCounter ≤ Config.counterMax && o.underrun ≤ Config.counterMax && o.late ≤ Config.counterMax &&
    o.collision ≤ Config.counterMax

/-- A link interface's numbers within their ranges (R171, R176). -/
def LinkIface.ok (l : LinkIface) : Bool := l.errors ≤ Config.counterMax && l.notices.all (·.count ≤ 255)

/-- Each link's notice table has one entry for each of its kinds, in the order of their numbers (R176). -/
def State.tablesOk (s : State) : Bool :=
  s.cli.notices.map (·.kind) = consoleKinds && s.rli.notices.map (·.kind) = rundownKinds

/-- The arbiter, edit engine, stager, outputs, links and the timebase's counters within their ranges (R106, R110). -/
def State.controlOk (s : State) : Bool :=
  s.aua.ok && s.ede.ok && s.wst.ok && s.loa.ok && s.lob.ok && s.cli.ok && s.rli.ok &&
    s.tablesOk && s.tbp.glitches ≤ Config.counterMax && s.tbp.clock ≤ Config.clockMax

/-- The settings within the ranges of their owners' rules (R163, R164). -/
def Settings.inRange (v : Settings) : Bool :=
  v.shaping.toList.all (·.ok) && v.console.ok && v.hand.toList.all (·.ok) && v.auto.ok && v.threshold ≤ 15 &&
    v.holdOverValue ≤ 255 && 1 ≤ v.accel && v.accel ≤ 4096 && 1 ≤ v.decel && v.decel ≤ 4096 &&
    v.paceMin ≤ v.paceMax && v.paceMax ≤ Config.speedMax && v.constant ≤ Config.speedMax && 1 ≤ v.rows &&
    v.rows ≤ 24 && v.eyeRow < v.rows && v.guardAbove ≤ 16 && v.guardBelow ≤ 32

/-- Every condition a run keeps. -/
def State.safe (s : State) : Bool :=
  s.settled && s.memoryOk && s.queuesOk && s.poolOk && s.storeOk && s.anchorOk && s.stillOk && s.authorityOk &&
    s.handOk && s.scrollOk && s.controlOk

/-! ### Staging and authority -/

/-- One staging trigger was met after all else that the event changed: in IDLE a staging has started, with a snapshot of the
state the event leaves; in STAGING restage-pending is set; nothing else of the stager differs (R148, R149). -/
def Published (s t : State) : Prop :=
  (s.wst.buffer = none → t.wst = { s.wst with buffer := some t.snapshot }) ∧
    (s.wst.buffer ≠ none → t.wst = { s.wst with restage := true })

/-- One staging trigger or more was met: as in `Published`, but that the second sets restage-pending where the first found
the stager IDLE (R148). -/
def Restaged (s t : State) : Prop :=
  (s.wst.buffer = none → t.wst = { s.wst with buffer := some t.snapshot, restage := t.wst.restage }) ∧
    (s.wst.buffer ≠ none → t.wst = { s.wst with restage := true })

/-- The arbiter keeps its entries, threshold, lock and hold-over value: only the grant may differ (R55). -/
def GrantOnly (s t : State) : Prop :=
  t.aua = { s.aua with holder := t.aua.holder, inHoldOver := t.aua.inHoldOver, count := t.aua.count }

/-- What a re-evaluation of the grant leaves: an arbiter that agreed with its inputs agrees with them as they now are, and the
stager is triggered exactly where the holder changed (R48, R55, R62). -/
def Regranted (s t : State) : Prop :=
  (s.authorityOk = true → t.authorityOk = true) ∧ (t.aua.holder = s.aua.holder → t.wst = s.wst) ∧
    (t.aua.holder ≠ s.aua.holder → Published s t)

/-- The grant of an event was re-evaluated by the grant rule: the arbiter with its entries and inputs as the event leaves them
and the grant as it stood, taken through a re-evaluation (R55). -/
def Reevaluated (s t : State) : Prop :=
  t.aua = { t with
    aua := { t.aua with holder := s.aua.holder, inHoldOver := s.aua.inHoldOver, count := s.aua.count } }.regrant.aua

/-! ### Hand ports -/

/-- A port after a bad frame: the bad run rises by one and stops at 8, and reaching 8 in ABSENT, LIVE or SILENT makes it FAULT
with demand 0, CLAIM, button latches, button record and tracker cleared (R76, R81, R82). -/
def HandPort.afterBadFrame (p : HandPort) : HandPort :=
  if p.badRun < 7 ∨ p.state = .fault ∨ p.state = .disabled then { p with badRun := min (p.badRun + 1) 8 }
  else
    { p with badRun := 8, state := .fault, latch := { p.latch with demand := 0, claim := false },
             buttons := Edges.none, record := none, expected := none, silence := 0 }

/-- A hand port took a new value, the others none, and the arbiter re-evaluated its grant where what decides its source changed
(R55, R77, R82). -/
def PortTook (n : Fin 4) (p : HandPort) (s t : State) : Prop :=
  t.port n = p ∧ (∀ m, m ≠ n → t.port m = s.port m) ∧ GrantOnly s t ∧ Regranted s t ∧
    (p.inputs = (s.port n).inputs → t.aua = s.aua) ∧ (p.inputs ≠ (s.port n).inputs → Reevaluated s t)

/-- The console notice table once a port has taken a value: PORT_STATE where its state changed, AUTHORITY_CHANGED where the
holder changed (R62, R82). -/
def portNotices (n : Fin 4) (p : HandPort) (s t : State) : List NoticeEntry :=
  let table := if p.state = (s.port n).state then s.cli.notices
    else raiseIn s.cli.notices .portState (.port n p.state)
  if t.aua.holder = s.aua.holder then table else raiseIn table .authorityChanged (.holder t.aua.holder)

/-! ### The frame step -/

/-- No line whose top lies in (p, q] is marked HOLD (R31). -/
def Store.clearOfHold (st : Store) (p q : Nat) : Prop :=
  ∀ j lid, p < j * 4096 → j * 4096 ≤ q → st.order[j]? = some lid → st.markOf lid ≠ .hold

/-- The scroll engine after the buttons a step takes (R27). -/
def State.pressed (s : State) : ScrollEngine := s.sce.press s.holderButtons

/-- The next step takes no jump and no rest: from the position p it slews v (R26, R28, R29). -/
def State.movesBy (s : State) (p : Nat) (v : Int) : Prop :=
  ∃ lid o, s.sce.anchor = some lid ∧ s.scs.ordinal? lid = some o ∧ p = o * 4096 + s.sce.fraction ∧
    s.pressed.state = .running ∧ s.pressed.pendingJump = none ∧ s.msc.mode.suspended = false ∧
    slew s.pressed.velocity (s.target p) s.sce.accel s.sce.decel = v

/-- A notice table once the current story has gone from `old` to `new` (R22). -/
def storyTold (table : List NoticeEntry) (old new : Option Nat) : List NoticeEntry :=
  match new with
  | none => table
  | some n => if old = some n then table else raiseIn table .storyAtEye (.value n)

/-- A notice table once a step has crossed CUE tops, the last of them with the cue number given (R33). -/
def cueTold (table : List NoticeEntry) : Option Nat → List NoticeEntry
  | none => table
  | some n => raiseIn table .cueLine (.value n)

/-- A notice table once a step has come to a scroll state on a line: HELD_AT_MARK where it is HELD (R31). -/
def heldTold (table : List NoticeEntry) (state : ScrollState) (lid : Nat) : List NoticeEntry :=
  if state = .held then raiseIn table .heldAtMark (.value lid) else table

/-- What every step does beside the engine: each port's button latches are emptied, one delivered tick is counted as taken, and
the engine publishes exactly where anchor, fraction or state changed (R26, R27, R47). -/
def State.StepTaken (s t : State) : Prop :=
  t.ports = s.ports.map (fun p => { p with buttons := Edges.none }) ∧
    t.due = { s.due with scroll := s.due.scroll - 1 } ∧
    (t.sce.anchor = s.sce.anchor ∧ t.sce.fraction = s.sce.fraction ∧ t.sce.state = s.sce.state → t.wst = s.wst) ∧
    (¬(t.sce.anchor = s.sce.anchor ∧ t.sce.fraction = s.sce.fraction ∧ t.sce.state = s.sce.state) → Published s t) ∧
    SameBut [.sce, .ports, .ede, .due, .wst, .cli] s t

/-- A step that leaves the eye where it was: the engine becomes `e`, and no pass is due for it. -/
def State.StaysAs (s t : State) (e : ScrollEngine) : Prop :=
  t.sce = e ∧ t.ede = s.ede ∧ t.cli = s.cli ∧ s.StepTaken t

/-- A step puts the eye on a line, with a fraction, velocity and scroll state. An anchor that changes line makes a pass due,
and gives its story as the current one, with STORY_AT_EYE where that is new; HELD_AT_MARK and CUE_LINE are raised where the
step gives cause (R22, R23, R30 to R34, R42). -/
def State.LandsOn (s t : State) (lid fraction : Nat) (v : Int) (state : ScrollState) (cue : Option Nat) : Prop :=
  t.sce = { s.pressed with
    anchor := some lid, fraction := fraction, velocity := v, state := state, pendingJump := none,
    currentStory := if s.sce.anchor = some lid then s.sce.currentStory else s.scs.storyOfLine? lid } ∧
  t.ede = { s.ede with passesDue := s.ede.passesDue + if s.sce.anchor = some lid then 0 else 1 } ∧
  t.cli = s.cli.tabled (cueTold
    (heldTold (storyTold s.cli.notices s.sce.currentStory t.sce.currentStory) state lid) cue) ∧
  s.StepTaken t

end Sys2Proof.Machine
end

