-- ==== Sys2Proof/Certificates/Slice0/Obligations.lean ====
section
/-! DEFINITION. The statements about the PX-420, in the order of its manual's chapters, the machine as a whole first. -/

open Sys2Proof Sys2Proof.Machine

/-! ### The machine -/

/-- The step executes the command at the front of the queue with the rest waiting, and every command answers a next
state: none faults, none is refused (log entry 23). That the step idles on an empty queue is the model's choice (log
entry 1). -/
def Obligations.StepTakesFrontCommand : Prop :=
  (∀ (c : Instr) (rest : List Instr) (s : State),
    s.pending = c :: rest → step s = exec c { s with pending := rest }) ∧
  (∀ s : State, s.pending = [] → step s = .next s) ∧
  ∀ (c : Instr) (s : State), ∃ t, exec c s = .next t

/-- State.reset meets every condition that a run keeps. -/
def Obligations.ResetIsSafe : Prop :=
  State.reset.safe = true

/-- A step that answers a next state leaves no line idle with something to send (R177), from every state that has none
so. That a send starts within the event that gives cause for it is the model's choice (log entry 7). -/
def Obligations.StepKeepsSettled : Prop :=
  ∀ s t : State, s.settled = true → step s = .next t → t.settled = true

/-- Every step keeps the settings memory in canonical form. What an unlisted byte reads as is the model's choice (log
entry 2). -/
def Obligations.StepKeepsMemoryCanonical : Prop :=
  ∀ s t : State, s.memoryOk = true → step s = .next t → t.memoryOk = true

/-- Every step keeps the commit queue, the receive queues and the response queues within their places (R127, R172). -/
def Obligations.StepKeepsQueuesWithinPlaces : Prop :=
  ∀ s t : State, s.queuesOk = true → step s = .next t → t.queuesOk = true

/-- Every step keeps the pool within its slots and the LID counter within its range, and the script store in order: no
story number twice, at most 256 stories, at most 2,048 lines in one, no line twice in the reading order, each line in
use in the list of the one story it names, each reserved line with one queue entry, and a link's edit slot COPYING
exactly while one entry of the link is (R1, R3, R6, R7, R120, R126, R127). -/
def Obligations.StepKeepsStore : Prop :=
  ∀ s t : State, s.poolOk = true → s.storeOk = true → step s = .next t → t.poolOk = true ∧ t.storeOk = true

/-- Every step keeps the reading position in the script: the anchor is a line in use, and empty exactly where the script
holds no line; the fraction lies in 0..4095, and is 0 with an empty anchor and on the last line; the current story is
the anchor's (R21, R22). -/
def Obligations.StepKeepsAnchor : Prop :=
  ∀ s t : State, s.storeOk = true → s.anchorOk = true → step s = .next t → t.anchorOk = true

/-- Every step keeps v at 0 while the state is FROZEN or HELD, the anchor empty, or the mode SETUP or LOADING (R24). -/
def Obligations.StepKeepsStillness : Prop :=
  ∀ s t : State, s.stillOk = true → step s = .next t → t.stillOk = true

/-- Every step keeps the arbiter in agreement with its inputs: no holder in SETUP and LOADING, the locked source under a
lock, else none or an eligible source, in hold-over exactly when it is inactive (R55, R56, R59). -/
def Obligations.StepKeepsAuthority : Prop :=
  ∀ s t : State, s.authorityOk = true → step s = .next t → t.authorityOk = true

/-- Every step keeps these numbers within their ranges: the shaping parameters (R90); a port's seven counters, bad run,
silence count, expected number, assembled words, latched deflection and demand (R71, R76, R78, R79, R83); the entries,
table length and remaining count of the player (R168, R169); the fraction, velocity, slew limits, manual speed, constant
value and pace limits (R21, R24, R35, R36, R116); the priorities, threshold, hold-over count and value (R51, R52, R55,
R69); the guard sizes and the lock table (R130, R137); window rows, eye row and the staging sequence counter (R144,
R147); an output's packet counter and three counts (R155, R157); the link error counters and notice counts (R171, R176);
the glitch counter and the show clock (R106, R110); and each link's notice table holds one entry for each of its kinds,
in order. No other number is bounded here. -/
def Obligations.StepKeepsRanges : Prop :=
  ∀ s t : State, s.handOk = true → s.scrollOk = true → s.controlOk = true → step s = .next t →
    t.handOk = true ∧ t.scrollOk = true ∧ t.controlOk = true

/-! ### Chapter 1: the script store -/

/-- A reservation takes n slots and gives the consecutive LIDs counter, counter + 1, …; it is refused POOL_FULL with
fewer than n free slots, else IDS_EXHAUSTED past 16,777,215, and then changes nothing (R3). -/
def Obligations.ReservationGivesConsecutiveLids : Prop :=
  ∀ (st : Store) (n : Nat),
    (st.free < n → st.reserve n = .error .poolFull) ∧
    (n ≤ st.free → 16777215 < st.nextLid + n - 1 → st.reserve n = .error .idsExhausted) ∧
    (n ≤ st.free → st.nextLid + n - 1 ≤ 16777215 →
      ∃ u lids, st.reserve n = .ok (u, lids) ∧ lids.length = n ∧ (∀ k, k < n → lids[k]? = some (st.nextLid + k)) ∧
        u.nextLid = st.nextLid + n ∧ u.rundown = st.rundown ∧ u.inUse = st.inUse ∧
        u.reserved = st.reserved + n ∧ u.free + n = st.free)

/-- What an apply makes of line lists, rundown and pool. LINES_REPLACE, a deletion included, puts the new lines in the
place of the span, LINES_INSERT directly after the after-line or at the start, the other lines keeping their order and
the other stories left alone; STORY_INSERT and STORY_MOVE put the record directly after the after-story, wherever it
stands, or at the start, STORY_DROP takes it out, and a moved record keeps every field. The lines removed leave the
pool, and the entry's lines take the number of the story they join (R10 to R15). -/
def Obligations.RundownEdits : Prop :=
  (∀ (before span rest new : List Nat) (f g : Nat), (before ++ span ++ rest).Nodup → span.head? = some f →
    span.getLast? = some g →
    replaceSpan (before ++ span ++ rest) f g new = before ++ new ++ rest ∧
    spanOf (before ++ span ++ rest) f g = span ∧
    insertLines (before ++ span ++ rest) (some g) new = before ++ span ++ new ++ rest ∧
    insertLines (before ++ span ++ rest) none new = new ++ (before ++ span ++ rest)) ∧
  (∀ (st : Store) (before rest : List Story) (a : Story) (n f g : Nat) (after : Option Nat) (lids : List Nat)
    (slug : Option (List CharCell)) (target : Option Nat), (st.rundown.map (·.number)).Nodup →
    st.rundown = before ++ a :: rest →
    st.rundownAfter (.linesReplace a.number f g) lids =
      before ++ { a with lines := replaceSpan a.lines f g lids } :: rest ∧
    st.removedBy (.linesReplace a.number f g) = spanOf a.lines f g ∧
    st.rundownAfter (.linesInsert a.number after) lids =
      before ++ { a with lines := insertLines a.lines after lids } :: rest ∧
    st.removedBy (.linesInsert a.number after) = [] ∧
    st.rundownAfter (.storyInsert n (some a.number) slug target) lids =
      before ++ a :: ⟨n, slug, target, lids, false⟩ :: rest ∧
    st.rundownAfter (.storyInsert n none slug target) lids = ⟨n, slug, target, lids, false⟩ :: st.rundown ∧
    st.removedBy (.storyInsert n after slug target) = [] ∧
    st.rundownAfter (.storyDrop a.number) lids = before ++ rest ∧ st.removedBy (.storyDrop a.number) = a.lines ∧
    st.rundownAfter (.storyMove a.number none) lids = a :: (before ++ rest) ∧
    st.removedBy (.storyMove a.number after) = []) ∧
  (∀ (st : Store) (before between rest : List Story) (a x : Story) (lids : List Nat),
    (st.rundown.map (·.number)).Nodup →
    (st.rundown = before ++ x :: (between ++ a :: rest) →
      st.rundownAfter (.storyMove x.number (some a.number)) lids = before ++ between ++ a :: x :: rest) ∧
    (st.rundown = before ++ a :: (between ++ x :: rest) →
      st.rundownAfter (.storyMove x.number (some a.number)) lids = before ++ a :: x :: (between ++ rest))) ∧
  ∀ (st : Store) (e : EditParams) (lids : List Nat), (st.applied e lids).nextLid = st.nextLid ∧
    (st.applied e lids).rundown = st.rundownAfter e lids ∧
    ∀ l, l ∈ (st.applied e lids).pool ↔ ∃ k ∈ st.pool, k.lid ∉ st.removedBy e ∧
      l = if k.lid ∈ lids then { k with story := some (editStory e) } else k

/-- RDLN on a line in use starts a read of it and of the lines that follow in reading order, up to a count of 1 to 8 or
the last line: the interface is executing, with the content captured held for the response, and nothing else changes.
Captured are each line's LID, ordinal, story number, style, mark, cue number and text, the number and slug of the start
line's story, whether a line follows, and the count taken. RDRN likewise captures a page of up to 64 stories. RDLN on a
LID that names no line in use is refused UNKNOWN_LINE with the refusal record; that a LID of 0 is refused so, too, is
the model's reading (log entry 8). A read completes with exactly the content it captured, whatever the store has become
(R17, R18, R173). -/
def Obligations.ReadsCaptureAtStart : Prop :=
  (∀ (link : Link) (tag : Byte) (lid count taken o n : Nat) (l : PoolLine) (story : Story) (s : State),
    s.settled = true → s.linkReady link = true → lid < 16777216 → count < 256 → s.scs.line? lid = some l →
    s.scs.ordinal? lid = some o → l.story = some n → s.scs.story? n = some story → taken = max 1 (min count 8) →
    ∃ (t : State) (entries : List (List Byte)), exec (.rdln link tag lid count) s = .next t ∧
      t.link link = { s.link link with reading := some ⟨.rdln, tag,
        u8 entries.length ++ entries.flatten ++ u16 n ++ opt (listOf fun c => u16 c.toNat) story.slug ++
          flag (o + taken < s.scs.order.length) ++ u8 taken⟩ } ∧
      entries.length = min taken (s.scs.order.length - o) ∧
      (∀ (k x m : Nat) (y : PoolLine) (c : LineContent), k < taken → s.scs.order[o + k]? = some x →
        s.scs.line? x = some y → y.story = some m → y.content = some c →
        entries[k]? = some (u24 x ++ u16 (o + k) ++ u16 m ++ u8 c.style.code ++ u8 c.mark.code ++
          opt u8 c.mark.cue? ++ listOf (fun c => u16 c.toNat) c.text)) ∧
      SameBut [linkBlock link] s t) ∧
  (∀ (link : Link) (tag : Byte) (lid count : Nat) (s : State), s.settled = true → s.linkReady link = true →
    lid < 16777216 → count < 256 → s.scs.line? lid = none →
    ∃ t, exec (.rdln link tag lid count) s = .next t ∧
      t.link link = answeredWith (s.link link) tag .rdln (.refused .unknownLine lid) ∧
      t.ede = { s.ede with refusal := some ⟨link, .rdln, .unknownLine, lid⟩ } ∧
      SameBut [linkBlock link, .ede] s t) ∧
  (∀ (link : Link) (tag : Byte) (page : Nat) (s : State), s.settled = true → s.linkReady link = true → page < 256 →
    ∃ t, exec (.rdrn link tag page) s = .next t ∧
      t.link link = { s.link link with reading := some ⟨.rdrn, tag,
        u8 (min page 3) ++ u16 s.scs.rundown.length ++ u16 s.scs.order.length ++
          listOf (fun x => u16 x.number ++ u16 x.lines.length ++ opt u32 x.target ++ flag x.overrun)
            ((s.scs.rundown.drop (64 * min page 3)).take 64)⟩ } ∧
      SameBut [linkBlock link] s t) ∧
  ∀ (link : Link) (tag : Byte) (data : List Byte) (s : State), s.settled = true →
    ((s.link link).reading = some ⟨.rdln, tag, data⟩ →
      ∃ t, exec (.rdlnCompletion link) s = .next t ∧
        t.link link = answeredWith { s.link link with reading := none } tag .rdln (.ok data) ∧
        SameBut [linkBlock link] s t) ∧
    ((s.link link).reading = some ⟨.rdrn, tag, data⟩ →
      ∃ t, exec (.rdrnCompletion link) s = .next t ∧
        t.link link = answeredWith { s.link link with reading := none } tag .rdrn (.ok data) ∧
        SameBut [linkBlock link] s t)

/-- CLRS empties store, slots and queue, gives the engine its clear values with a pass due where the anchor was not
empty, triggers the stager, and leaves the part's settings, locks, guards, refusal record, ports, outputs, clock and the
other link as they stand; of the arbiter only the grant may change, re-evaluated by the grant rule where the manual
speed was not 0 and else as it stood, and of the stager buffer and restage-pending (R19, R50, R55, R142, R151, R181).
That the re-evaluation of the grant and the staging triggers come in the same event, the first trigger before the
re-evaluation, is the model's reading (log entry 11). -/
def Obligations.ClearShowEmptiesScript : Prop :=
  ∀ (tag : Byte) (s : State), s.settled = true → s.consoleReady = true →
    ∃ t, exec (.clrs .console tag) s = .next t ∧ t.scs = ⟨[], [], 1⟩ ∧
      t.ede = { s.ede with consoleSlot := .closed, rundownSlot := .closed, queue := [],
                           passesDue := s.ede.passesDue + if s.sce.anchor = none then 0 else 1 } ∧
      t.sce = ⟨none, 0, 0, .running, none, 0, none, s.sce.accel, s.sce.decel⟩ ∧
      GrantOnly s t ∧ (s.authorityOk = true → t.authorityOk = true) ∧
      (s.sce.manualSpeed = 0 → t.aua = s.aua) ∧ (s.sce.manualSpeed ≠ 0 → Reevaluated s t) ∧
      (s.wst.buffer = none → t.wst = { s.wst with
        buffer := some { t.snapshot with holder := s.aua.holder }, restage := t.wst.restage }) ∧
      (s.wst.buffer ≠ none → t.wst = { s.wst with restage := true }) ∧
      t.cli = linkAfter s.cli (s.tallyNotices t.aua.holder) ⟨tag, Mnem.clrs.bytes, .ok []⟩ ∧
      SameBut [.scs, .ede, .sce, .aua, .wst, .cli] s t

/-! ### Chapter 2: the scroll engine -/

/-- The slew rule (R29): opposite signs go to 0 by b without passing it; a smaller target is approached by at most b,
any other by at most a; no step changes the sign of v directly. -/
def Obligations.SlewRule : Prop :=
  ∀ (v target : Int) (a b : Nat),
    ((0 < v ∧ target < 0) ∨ (v < 0 ∧ 0 < target) →
      (v.natAbs ≤ b → slew v target a b = 0) ∧
      (b < v.natAbs → (slew v target a b).natAbs = v.natAbs - b ∧ (0 < slew v target a b ↔ 0 < v))) ∧
    (¬((0 < v ∧ target < 0) ∨ (v < 0 ∧ 0 < target)) → target.natAbs < v.natAbs →
      ((v - target).natAbs ≤ b → slew v target a b = target) ∧
      (b < (v - target).natAbs → slew v target a b = if v < target then v + b else v - b)) ∧
    (¬((0 < v ∧ target < 0) ∨ (v < 0 ∧ 0 < target)) → v.natAbs ≤ target.natAbs →
      ((target - v).natAbs ≤ a → slew v target a b = target) ∧
      (a < (target - v).natAbs → slew v target a b = if v < target then v + a else v - a)) ∧
    (0 < v → 0 ≤ slew v target a b) ∧ (v < 0 → slew v target a b ≤ 0)

/-- Where a step comes to rest. Forward, at the first HOLD-marked line whose top lies in (p, p + v]; one not stopped by
a HOLD mark is clamped at the end position with v 0, else lands on p + v with v kept. Backward, every mark is ignored:
below 0 it lands on the first line at fraction 0 with v 0, else on p + v. The line is that at the quotient by 4096, the
remainder the fraction. The cue number reported is that of the last CUE-marked line whose top lies in (p, q], none where
no such line lies there (R30 to R34). -/
def Obligations.StepLandings : Prop :=
  (∀ (st : Store) (p v k lid : Nat), p < k * 4096 → k * 4096 ≤ p + v → st.order[k]? = some lid →
    st.markOf lid = .hold →
    (∀ j x, p < j * 4096 → j < k → st.order[j]? = some x → st.markOf x ≠ .hold) →
    st.landForward p v = some ⟨lid, 0, 0, true, k * 4096⟩) ∧
  (∀ (st : Store) (p v : Nat), p / 4096 < st.order.length → st.clearOfHold p (p + v) →
    ((st.order.length - 1) * 4096 < p + v → ∃ lid, st.order[st.order.length - 1]? = some lid ∧
      st.landForward p v = some ⟨lid, 0, 0, false, (st.order.length - 1) * 4096⟩) ∧
    (p + v ≤ (st.order.length - 1) * 4096 → ∃ lid, st.order[(p + v) / 4096]? = some lid ∧
      st.landForward p v = some ⟨lid, (p + v) % 4096, v, false, p + v⟩)) ∧
  (∀ (st : Store) (p : Nat) (v : Int), v < 0 → p / 4096 < st.order.length →
    (∃ lid, st.order[0]? = some lid ∧ ((p : Int) + v < 0 →
      st.landBackward p v = some ⟨lid, 0, 0, false, 0⟩)) ∧
    ((0 : Int) ≤ p + v → ∃ lid, st.order[((p : Int) + v).toNat / 4096]? = some lid ∧
      st.landBackward p v = some ⟨lid, ((p : Int) + v).toNat % 4096, v, false, ((p : Int) + v).toNat⟩)) ∧
  ∀ (st : Store) (p q : Nat),
    (∀ k lid c, p < k * 4096 → k * 4096 ≤ q → st.order[k]? = some lid → st.markOf lid = .cue c →
      (∀ j x, k < j → j * 4096 ≤ q → st.order[j]? = some x → (st.markOf x).cue? = none) →
      st.lastCue? p q = some c) ∧
    ((∀ j x, p < j * 4096 → j * 4096 ≤ q → st.order[j]? = some x → (st.markOf x).cue? = none) →
      st.lastCue? p q = none)

/-- A frame step with no jump to apply, after the holder's buttons. Moving, it slews v from p and stops at the first
HOLD top in (p, p + v] with state HELD and HELD_AT_MARK; else a v past the end position lands there with v 0, else on
exactly p + v; backward it lands on the top with v 0, else on p + v; CUE_LINE carries the last CUE top crossed, and a v
of 0 leaves the position. Where the state is FROZEN or HELD, the anchor empty or the mode SETUP or LOADING, v is 0 and
the position stays. Every port's button latches are emptied, and the engine publishes exactly where anchor, fraction or
state changed (R24 to R26, R30 to R34, R47). One delivered tick is counted as taken (log entry 4). -/
def Obligations.ScrollStepMovesOrStays : Prop :=
  (∀ (s : State) (p : Nat) (v : Int) (lid : Nat), s.settled = true → s.movesBy p v →
    (∀ k, 0 < v → p < k * 4096 → ((k * 4096 : Nat) : Int) ≤ p + v → s.scs.order[k]? = some lid →
      s.scs.markOf lid = .hold →
      (∀ j x, p < j * 4096 → j < k → s.scs.order[j]? = some x → s.scs.markOf x ≠ .hold) →
      ∃ t, exec .scrollStep s = .next t ∧ s.LandsOn t lid 0 0 .held (s.scs.lastCue? p (k * 4096))) ∧
    (0 < v → s.scs.clearOfHold p (p + v).toNat → s.scs.order.getLast? = some lid →
      (((s.scs.order.length - 1) * 4096 : Nat) : Int) < p + v →
      ∃ t, exec .scrollStep s = .next t ∧
        s.LandsOn t lid 0 0 .running (s.scs.lastCue? p ((s.scs.order.length - 1) * 4096))) ∧
    (0 < v → s.scs.clearOfHold p (p + v).toNat → s.scs.order[(p + v).toNat / 4096]? = some lid →
      p + v ≤ (((s.scs.order.length - 1) * 4096 : Nat) : Int) →
      ∃ t, exec .scrollStep s = .next t ∧
        s.LandsOn t lid ((p + v).toNat % 4096) v .running (s.scs.lastCue? p (p + v).toNat)) ∧
    (v < 0 → p + v < 0 → s.scs.order[0]? = some lid →
      ∃ t, exec .scrollStep s = .next t ∧ s.LandsOn t lid 0 0 .running none) ∧
    (v < 0 → 0 ≤ p + v → s.scs.order[(p + v).toNat / 4096]? = some lid →
      ∃ t, exec .scrollStep s = .next t ∧ s.LandsOn t lid ((p + v).toNat % 4096) v .running none) ∧
    (v = 0 → ∃ t, exec .scrollStep s = .next t ∧ s.StaysAs t { s.pressed with velocity := 0 })) ∧
  ∀ s : State, s.settled = true →
    (s.pressed.state ≠ .running ∨ s.sce.anchor = none ∨ s.msc.mode.suspended = true) →
    s.pressed.pendingJump = none →
    ∃ t, exec .scrollStep s = .next t ∧ s.StaysAs t { s.pressed with velocity := 0 }

/-- A jump waiting at a step, after the holder's buttons, is applied in place of slewing: the anchor becomes the line
its target resolves to, at fraction 0 with v 0, HELD becoming RUNNING; or it is discarded with JUMP_DISCARDED and the
position left as it was; the slot is emptied. TOP resolves to the line at ordinal 0; STORY to the story's first line,
for an empty story to the first line after its place, else the last line; NEXT to the first line of the first later
story with lines, else the last line; PREV to the first line of the nearest earlier story with lines, else the current
story's; LINE to the line in use it names. Nothing is resolved in an empty script, nor a story or line that has gone
(R22, R27, R41, R42, R47). -/
def Obligations.ScrollStepAppliesJump : Prop :=
  (∀ (s : State) (j : JumpTarget), s.settled = true → s.pressed.pendingJump = some j →
    (∀ lid, s.resolve j = some lid → ∃ t, exec .scrollStep s = .next t ∧
      s.LandsOn t lid 0 0 (if s.pressed.state = .held then .running else s.pressed.state) none) ∧
    (s.resolve j = none → ∃ t, exec .scrollStep s = .next t ∧ t.sce = { s.pressed with pendingJump := none } ∧
      t.ede = s.ede ∧ t.cli = s.cli.tabled (raiseIn s.cli.notices .jumpDiscarded (.jump j)) ∧ s.StepTaken t)) ∧
  (∀ s : State, s.resolve .top = s.scs.order.head? ∧
    (s.sce.currentStory = none → s.resolve .next = none ∧ s.resolve .prev = none) ∧
    (∀ n, (∀ x ∈ s.scs.rundown, x.number ≠ n) → s.resolve (.story n) = none) ∧
    (∀ lid, s.resolve (.line lid) = if (s.scs.line? lid).isSome then some lid else none)) ∧
  ∀ (s : State) (before rest : List Story) (a : Story), (s.scs.rundown.map (·.number)).Nodup →
    s.scs.rundown = before ++ a :: rest →
    (∀ lid ls, a.lines = lid :: ls → s.resolve (.story a.number) = some lid) ∧
    (a.lines = [] → s.resolve (.story a.number) =
      ((rest.flatMap (·.lines)).head?).or (s.scs.order.getLast?)) ∧
    (s.sce.currentStory = some a.number →
      s.resolve .next = ((rest.flatMap (·.lines)).head?).or (s.scs.order.getLast?) ∧
      (∀ (b1 b2 : List Story) (x : Story) (lid : Nat) (ls : List Nat), before = b1 ++ x :: b2 → x.lines = lid :: ls →
        (∀ y ∈ b2, y.lines = []) → s.resolve .prev = some lid) ∧
      ((∀ y ∈ before, y.lines = []) → s.resolve .prev = a.lines.head?))

/-- The holder's buttons in their order: HOLD_TOGGLE first, then GO, then NEXT before PREV (R27). -/
def Obligations.ButtonsActInOrder : Prop :=
  ∀ (e : ScrollEngine) (b : Edges),
    (b.holdToggle = true → e.state ≠ .frozen → (e.press b).state = .frozen ∧ (e.press b).velocity = 0) ∧
    (b.holdToggle = true → e.state = .frozen → (e.press b).state = .running) ∧
    (b.holdToggle = false → b.go = true → e.state = .held → (e.press b).state = .running) ∧
    (b.holdToggle = false → (b.go = false ∨ e.state ≠ .held) → (e.press b).state = e.state) ∧
    (e.press b).pendingJump =
      (if b.next then some .next else if b.prev then some .prev else e.pendingJump) ∧
    (e.press b).anchor = e.anchor ∧ (e.press b).fraction = e.fraction

/-- MSPD takes the clamped speed and answers it; a change that keeps CONSOLE's activity changes nothing else, any other
re-evaluates the grant by the grant rule, and the stager is triggered where the holder changed. A JUMP to TOP, NEXT or
PREV, to a story of the rundown, or to a line in use, waits in the pending-jump slot, replacing any jump there, and
changes nothing else (R36, R40). -/
def Obligations.SpeedAndJumpRequests : Prop :=
  (∀ (tag : Byte) (v w : Int) (s : State), s.settled = true → s.consoleReady = true → -32768 ≤ v → v ≤ 32767 →
    w = max (-16384) (min v 16384) →
    ∃ t, exec (.mspd .console tag v) s = .next t ∧ t.sce = { s.sce with manualSpeed := w } ∧
      t.cli = linkAfter s.cli (s.tallyNotices t.aua.holder) ⟨tag, Mnem.mspd.bytes, .ok (i16 w)⟩ ∧
      GrantOnly s t ∧ Regranted s t ∧ SameBut [.sce, .aua, .wst, .cli] s t ∧
      ((w = 0 ↔ s.sce.manualSpeed = 0) → SameBut [.sce, .cli] s t) ∧
      (¬(w = 0 ↔ s.sce.manualSpeed = 0) → Reevaluated s t)) ∧
  ∀ (tag : Byte) (n lid : Nat) (s : State), s.settled = true → s.consoleReady = true →
    (∃ t, exec (.jump .console tag 0 0) s = .next t ∧ t.sce = { s.sce with pendingJump := some .top } ∧
      t.cli = answeredWith s.cli tag .jump (.ok []) ∧ SameBut [.sce, .cli] s t) ∧
    (n < 65536 → (s.scs.story? n).isSome = true →
      ∃ t, exec (.jump .console tag 1 n) s = .next t ∧ t.sce = { s.sce with pendingJump := some (.story n) } ∧
        t.cli = answeredWith s.cli tag .jump (.ok []) ∧ SameBut [.sce, .cli] s t) ∧
    (∃ t, exec (.jump .console tag 2 0) s = .next t ∧ t.sce = { s.sce with pendingJump := some .next } ∧
      t.cli = answeredWith s.cli tag .jump (.ok []) ∧ SameBut [.sce, .cli] s t) ∧
    (∃ t, exec (.jump .console tag 3 0) s = .next t ∧ t.sce = { s.sce with pendingJump := some .prev } ∧
      t.cli = answeredWith s.cli tag .jump (.ok []) ∧ SameBut [.sce, .cli] s t) ∧
    (lid < 16777216 → (s.scs.line? lid).isSome = true →
      ∃ t, exec (.jump .console tag 4 lid) s = .next t ∧ t.sce = { s.sce with pendingJump := some (.line lid) } ∧
        t.cli = answeredWith s.cli tag .jump (.ok []) ∧ SameBut [.sce, .cli] s t)

/-- FRZE, THAW and RELS on the console link: the state each leaves, FRZE with v 0 where it freezes, answered with the
state taken. A change of state publishes: in IDLE a staging starts, in STAGING restage-pending is set; without a change
only the response is new. HOLD_TOGGLE and GO of the holding hand unit make the same change of engine, and two toggles
leave the state as it was, HELD becoming RUNNING. After a freeze or a hold the next step slews v from 0 toward T, which
is 0 where the holder is inactive or none; a hold catch takes only a top beyond p, so the line under the eye lets go
(R37, R38, R39). -/
def Obligations.FreezeThawRelease : Prop :=
  (∀ (tag : Byte) (s : State), s.settled = true → s.consoleReady = true →
    (∃ t, exec (.frze .console tag) s = .next t ∧
      t.sce = (if s.sce.state = .frozen then { s.sce with state := .running }
        else { s.sce with state := .frozen, velocity := 0 }) ∧
      t.sce = s.sce.press ⟨true, false, false, false⟩ ∧
      t.cli = answeredWith s.cli tag .frze (.ok (u8 t.sce.state.code)) ∧ Published s t ∧
      SameBut [.sce, .wst, .cli] s t) ∧
    (∃ t, exec (.thaw .console tag) s = .next t ∧
      t.sce = { s.sce with state := if s.sce.state = .frozen then .running else s.sce.state } ∧
      (s.stillOk = true → s.sce.state = .frozen → t.sce.velocity = 0 ∧
        ∀ p v, t.movesBy p v → v = slew 0 (t.target p) t.sce.accel t.sce.decel) ∧
      t.cli = answeredWith s.cli tag .thaw (.ok (u8 t.sce.state.code)) ∧
      (s.sce.state = .frozen → Published s t) ∧ (s.sce.state ≠ .frozen → t.wst = s.wst) ∧
      SameBut [.sce, .wst, .cli] s t) ∧
    (∃ t, exec (.rels .console tag) s = .next t ∧
      t.sce = { s.sce with state := if s.sce.state = .held then .running else s.sce.state } ∧
      t.sce = s.sce.press ⟨false, true, false, false⟩ ∧
      (s.stillOk = true → s.sce.state = .held →
        ∀ p v, t.movesBy p v → v = slew 0 (t.target p) t.sce.accel t.sce.decel) ∧
      t.cli = answeredWith s.cli tag .rels (.ok (u8 t.sce.state.code)) ∧
      (s.sce.state = .held → Published s t) ∧ (s.sce.state ≠ .held → t.wst = s.wst) ∧
      SameBut [.sce, .wst, .cli] s t)) ∧
  (∀ e : ScrollEngine, ((e.press ⟨true, false, false, false⟩).press ⟨true, false, false, false⟩).state =
    if e.state = .held then .running else e.state) ∧
  (∀ (s : State) (p : Nat), (∀ h, s.aua.holder = some h → s.active h = false) → s.target p = 0) ∧
  ∀ (st : Store) (p v : Nat) (x : Landing), st.landForward p v = some x → x.held = true → p < x.stop

/-! ### Chapter 3: scroll authority -/

/-- LOCK outside SETUP and LOADING makes the named source the lock and the holder, with no hold-over; a holder it
already was restages nothing. FREE ends the lock and re-evaluates the grant by the grant rule; the arbiter then agrees
with its inputs, and a holder that is eligible and active keeps authority where no eligible active source has a higher
priority. Each answers the holder, and triggers the stager exactly where the holder changed (R48, R56, R58, R62, R64,
R65). -/
def Obligations.LockAndFree : Prop :=
  (∀ (tag : Byte) (n : Nat) (src : Source) (s : State), s.settled = true → s.consoleReady = true →
    s.msc.mode ≠ .setup → n = src.number →
    ∃ t, exec (.lock .console tag n) s = .next t ∧
      t.aua = { s.aua with lock := some src, holder := some src, inHoldOver := false, count := 0 } ∧
      t.cli = linkAfter s.cli (s.tallyNotices (some src)) ⟨tag, Mnem.lock.bytes, .ok (u8 n ++ u8 n)⟩ ∧
      (s.aua.holder = some src → t.wst = s.wst) ∧ (s.aua.holder ≠ some src → Published s t) ∧
      SameBut [.aua, .wst, .cli] s t) ∧
  ∀ (tag : Byte) (s : State), s.settled = true → s.consoleReady = true →
    ∃ t, exec (.free .console tag) s = .next t ∧ GrantOnly { s with aua := { s.aua with lock := none } } t ∧
      t.authorityOk = true ∧ Regranted s t ∧ Reevaluated s t ∧
      t.cli = linkAfter s.cli (s.tallyNotices t.aua.holder)
        ⟨tag, Mnem.free.bytes, .ok (u8 (holderCode t.aua.holder))⟩ ∧
      (∀ h, s.msc.mode ≠ .setup → s.aua.holder = some h → s.eligible h = true → s.active h = true →
        (∀ x, s.eligible x = true → s.active x = true →
          (s.aua.entry x).priority ≤ (s.aua.entry h).priority) → t.aua.holder = some h) ∧
      SameBut [.aua, .wst, .cli] s t

/-- SRCS and THRS write the entry or threshold clamped to 15, re-evaluate the grant by the grant rule, answer the values
taken and the holder, and trigger the stager exactly where the holder changed; no other entry changes (R55, R66, R67).
-/
def Obligations.SourceAndThresholdWrites : Prop :=
  ∀ (tag : Byte) (n v : Nat) (src : Source) (on : Bool) (s : State), s.settled = true → s.consoleReady = true →
    n = src.number → v < 256 →
    (∃ t, exec (.srcs .console tag n on v) s = .next t ∧ t.aua.entry src = ⟨on, min v 15⟩ ∧
      (∀ x, x ≠ src → t.aua.entry x = s.aua.entry x) ∧ t.aua.lock = s.aua.lock ∧
      t.aua.threshold = s.aua.threshold ∧ t.aua.holdOverValue = s.aua.holdOverValue ∧ Regranted s t ∧
      Reevaluated s t ∧
      t.cli = linkAfter s.cli (s.tallyNotices t.aua.holder)
        ⟨tag, Mnem.srcs.bytes, .ok (flag on ++ u8 (min v 15) ++ u8 (holderCode t.aua.holder))⟩ ∧
      SameBut [.aua, .wst, .cli] s t) ∧
    (∃ t, exec (.thrs .console tag v) s = .next t ∧
      GrantOnly { s with aua := { s.aua with threshold := min v 15 } } t ∧
      (∀ x, t.aua.entry x = s.aua.entry x) ∧ Regranted s t ∧ Reevaluated s t ∧
      t.cli = linkAfter s.cli (s.tallyNotices t.aua.holder)
        ⟨tag, Mnem.thrs.bytes, .ok (u8 (min v 15) ++ u8 (holderCode t.aua.holder))⟩ ∧
      SameBut [.aua, .wst, .cli] s t)

/-- A re-evaluation of the grant, case by case. SETUP and LOADING leave no holder; a lock makes its source the holder. A
holder that is none or ineligible gives way to the choice among candidates: the eligible active source of highest
priority, on equal priority the lowest number, none where there is no candidate. An eligible active holder gives way to
a candidate of strictly higher priority, and else keeps authority; an eligible inactive one gives way to a candidate of
equal or higher priority, and else keeps authority in hold-over, whose count goes on where it was in progress and starts
at the hold-over value where it was not. A source is eligible when enabled at or above the threshold, a hand one also
while its port is LIVE or driven in DIAGNOSTIC; active are a console speed, a demand or CLAIM, and an auto mode not OFF.
The arbiter's tick changes nothing outside hold-over; in hold-over the count falls by 1, and at 0 the holder is released
and that choice made, with AUTHORITY_CHANGED and a publish where the holder changed (R53, R54, R56 to R62). That
ARBITER_TICK does the expiry itself, and HOLD_OVER_EXPIRY as a command of its own does that same tick, is the model's
reading of the table (log entry 5). One delivered tick is counted as taken (log entry 4). -/
def Obligations.HoldOverCountsDown : Prop :=
  (∀ (s : State) (floor : Nat),
    (s.best floor = none → ∀ src, s.candidate floor src = false) ∧
    (∀ b, s.best floor = some b → s.candidate floor b = true ∧
      ∀ src, s.candidate floor src = true → (s.aua.entry src).priority < (s.aua.entry b).priority ∨
        ((s.aua.entry src).priority = (s.aua.entry b).priority ∧ b.number ≤ src.number)) ∧
    ∀ src, s.candidate floor src = true ↔
      s.eligible src = true ∧ s.active src = true ∧ floor ≤ (s.aua.entry src).priority) ∧
  (∀ (s : State) (src : Source),
    (s.eligible src = true ↔ (s.aua.entry src).enable = true ∧ s.aua.threshold ≤ (s.aua.entry src).priority ∧
      ∀ n, src = .hand n → (s.port n).state = .live ∨ (s.msc.mode = .diagnostic ∧ (s.port n).driven = true)) ∧
    (s.active src = true ↔ (src = .console ∧ s.sce.manualSpeed ≠ 0) ∨
      (∃ n, src = .hand n ∧ ((s.port n).latch.demand ≠ 0 ∨ (s.port n).latch.claim = true)) ∨
      (src = .auto ∧ s.tbp.autoMode ≠ .off))) ∧
  (∀ s : State,
    (s.msc.mode = .setup ∨ s.msc.mode = .loading →
      s.regrant.aua = { s.aua with holder := none, inHoldOver := false, count := 0 }) ∧
    (s.msc.mode ≠ .setup → s.msc.mode ≠ .loading →
      (∀ l, s.aua.lock = some l →
        s.regrant.aua = { s.aua with holder := some l, inHoldOver := false, count := 0 }) ∧
      (s.aua.lock = none → (∀ h, s.aua.holder = some h → s.eligible h = false) →
        s.regrant.aua = { s.aua with holder := s.best 0, inHoldOver := false, count := 0 }) ∧
      (∀ h, s.aua.lock = none → s.aua.holder = some h → s.eligible h = true → s.active h = true →
        (∀ x, s.best ((s.aua.entry h).priority + 1) = some x →
          s.regrant.aua = { s.aua with holder := some x, inHoldOver := false, count := 0 }) ∧
        (s.best ((s.aua.entry h).priority + 1) = none →
          s.regrant.aua = { s.aua with holder := some h, inHoldOver := false, count := 0 })) ∧
      (∀ h, s.aua.lock = none → s.aua.holder = some h → s.eligible h = true → s.active h = false →
        (∀ x, s.best (s.aua.entry h).priority = some x →
          s.regrant.aua = { s.aua with holder := some x, inHoldOver := false, count := 0 }) ∧
        (s.best (s.aua.entry h).priority = none →
          s.regrant.aua = { s.aua with
            inHoldOver := true, count := if s.aua.inHoldOver then s.aua.count else s.aua.holdOverValue })))) ∧
  ∀ s : State, s.settled = true →
    (s.aua.inHoldOver = false → ∃ t, exec .arbiterTick s = .next t ∧
      t.due = { s.due with arbiter := s.due.arbiter - 1 } ∧ SameBut [.due] s t) ∧
    (s.aua.inHoldOver = true → 1 < s.aua.count → ∃ t, exec .arbiterTick s = .next t ∧
      t.aua = { s.aua with count := s.aua.count - 1 } ∧ t.due = { s.due with arbiter := s.due.arbiter - 1 } ∧
      SameBut [.aua, .due] s t) ∧
    (s.aua.inHoldOver = true → s.aua.count ≤ 1 → ∃ t, exec .arbiterTick s = .next t ∧
      exec .holdOverExpiry s = .next t ∧
      t.aua = { s.aua with holder := s.best 0, inHoldOver := false, count := 0 } ∧
      t.due = { s.due with arbiter := s.due.arbiter - 1 } ∧ Regranted s t ∧
      t.cli = s.cli.tabled (s.tallyNotices (s.best 0)) ∧ SameBut [.aua, .due, .wst, .cli] s t)

/-! ### Chapters 4 and 5: hand ports and speed curves -/

/-- A word is discarded unexamined while the port is DISABLED or the reset line is asserted. Any other word that
completes no valid frame is taken by its flags: bad parity is counted, discards any open frame and puts the assembler in
HUNT; an abort is counted and leaves it IDLE; a first word begins a frame, cutting off an open one as a framing error,
and is a length error where it carries the last flag too; a word without the first flag is a stray word in IDLE, is
discarded in HUNT, is word 2 of the open frame or cuts it short, and word 3 is a length error without the last flag and
a kind error where the frame's kind is out of range. Every count on parity, framing, length or kind raises the bad run,
and the eighth makes the port FAULT with demand 0, CLAIM and button latches cleared, PORT_STATE and a report to the
arbiter. No other port changes (R70 to R76, R81, R82, R184). -/
def Obligations.HandWordAssembly : Prop :=
  (∀ (n : Fin 4) (w : HandBits) (s : State), s.settled = true →
    (s.msc.resetLine = true ∨ (s.port n).state = .disabled) → exec (.handWord n w) s = .next s) ∧
  ∀ (n : Fin 4) (w : HandBits) (p q : HandPort) (s : State), s.settled = true → s.msc.resetLine = false →
    p = s.port n → p.state ≠ .disabled →
    ((wordGood w = false ∧ q = { p with
        assembler := .hunt, counters := { p.counters with parity := min (p.counters.parity + 1) 65535 } }.afterBadFrame) ∨
      (wordGood w = true ∧ w.getLsbD 17 = true ∧ q = { p with
        assembler := .idle, counters := { p.counters with aborted := min (p.counters.aborted + 1) 65535 } }) ∨
      (wordGood w = true ∧ w.getLsbD 17 = false ∧ w.getLsbD 19 = true ∧ ∃ p0,
        p0 = (if p.assembler.isOpen then { p with
          counters := { p.counters with framing := min (p.counters.framing + 1) 65535 } }.afterBadFrame else p) ∧
        ((w.getLsbD 18 = true ∧ q = { p0 with
            assembler := .idle,
            counters := { p0.counters with length := min (p0.counters.length + 1) 65535 } }.afterBadFrame) ∨
          (w.getLsbD 18 = false ∧
            q = { p0 with assembler := .open1 (w.toNat / 8192 % 16) (w.toNat / 2 % 64) }))) ∨
      (wordGood w = true ∧ w.getLsbD 17 = false ∧ w.getLsbD 19 = false ∧
        ((p.assembler = .idle ∧ q = { p with
            counters := { p.counters with framing := min (p.counters.framing + 1) 65535 } }.afterBadFrame) ∨
          (p.assembler = .hunt ∧ q = p) ∨
          (∃ k seq, p.assembler = .open1 k seq ∧
            ((w.getLsbD 18 = true ∧ q = { p with
                assembler := .idle,
                counters := { p.counters with length := min (p.counters.length + 1) 65535 } }.afterBadFrame) ∨
              (w.getLsbD 18 = false ∧ q = { p with assembler := .open2 k seq (w.toNat / 2 % 4096) }))) ∨
          (∃ k seq d, p.assembler = .open2 k seq d ∧
            ((w.getLsbD 18 = false ∧ q = { p with
                assembler := .hunt,
                counters := { p.counters with length := min (p.counters.length + 1) 65535 } }.afterBadFrame) ∨
              (w.getLsbD 18 = true ∧ (k = 0 ∨ 3 < k) ∧ q = { p with
                assembler := .idle,
                counters := { p.counters with kind := min (p.counters.kind + 1) 65535 } }.afterBadFrame)))))) →
    ∃ t, exec (.handWord n w) s = .next t ∧ PortTook n q s t ∧ t.cli = s.cli.tabled (portNotices n q s t) ∧
      SameBut [.ports, .aua, .wst, .cli] s t

/-- The third word of a frame with a kind in range makes the port LIVE, with PORT_STATE where it was not: the valid
counter counts one, the missed counter the gap from the expected number in a port that was LIVE, bad run and silence
count are 0, the next number is expected, the kind is the last real kind, and the button record takes the frame's
levels. Outside DIAGNOSTIC the latch takes the frame's deflection, kind and CLAIM with the shaped demand, and each
button pressed now and released in the record of a LIVE port becomes pending; in DIAGNOSTIC latch and button latches are
left to the player. The assembler is IDLE, and no other port changes (R75, R77, R79, R83, R84, R85). -/
def Obligations.ValidFrameFillsLatch : Prop :=
  ∀ (n : Fin 4) (w : HandBits) (k : UnitKind) (seq d gap : Nat) (levels latched : Edges) (p q : HandPort) (s : State),
    s.settled = true → s.msc.resetLine = false → p = s.port n → p.state ≠ .disabled →
    p.assembler = .open2 k.code seq d → wordGood w = true → w.getLsbD 19 = false → w.getLsbD 18 = true →
    w.getLsbD 17 = false → levels = ⟨w.getLsbD 1, w.getLsbD 2, w.getLsbD 3, w.getLsbD 4⟩ →
    (((p.state ≠ .live ∨ p.expected = none) ∧ gap = 0) ∨
      (p.state = .live ∧ ∃ e, p.expected = some e ∧ (gap : Int) = ((seq : Int) - e) % 64)) →
    (((p.state ≠ .live ∨ p.record = none) ∧ latched = p.buttons) ∨
      (p.state = .live ∧ ∃ r, p.record = some r ∧ latched =
        ⟨p.buttons.holdToggle || (levels.holdToggle && !r.holdToggle), p.buttons.go || (levels.go && !r.go),
          p.buttons.next || (levels.next && !r.next), p.buttons.prev || (levels.prev && !r.prev)⟩)) →
    q = { p with
      state := .live, assembler := .idle, badRun := 0, silence := 0, expected := some ((seq + 1) % 64),
      lastKind := some k, record := some levels,
      counters := { p.counters with
        valid := min (p.counters.valid + 1) 65535, missed := min (p.counters.missed + gap) 65535 },
      latch := if s.msc.mode = .diagnostic then p.latch
        else ⟨some d, shape (s.dsh.get n) k d, some k, w.getLsbD 5⟩,
      buttons := if s.msc.mode = .diagnostic then p.buttons else latched } →
    ∃ t, exec (.handWord n w) s = .next t ∧ PortTook n q s t ∧ t.cli = s.cli.tabled (portNotices n q s t) ∧
      SameBut [.ports, .aua, .wst, .cli] s t

/-- A port's tick: in LIVE the silence count rises, at the fifth the port is SILENT with demand 0 and CLAIM, button
latches, record and tracker cleared, the deflection kept, PORT_STATE raised and the arbiter told; in any other state the
port is left as it is (R78, R82). That PORT_TICK does the expiry itself, and PORT_SILENCE_EXPIRY as a command of its own
is that fifth tick, is the model's reading of the table (log entry 5). One delivered tick is counted as taken (log entry
4). -/
def Obligations.PortTickCountsSilence : Prop :=
  ∀ (n : Fin 4) (p : HandPort) (due : TickDue) (s : State), s.settled = true → p = s.port n →
    due = { s.due with ports := s.due.ports.set n (s.due.ports.get n - 1) } →
    (p.state ≠ .live → ∃ t, exec (.portTick n) s = .next t ∧ t.due = due ∧ SameBut [.due] s t) ∧
    (p.state = .live → p.silence < 4 → ∃ t, exec (.portTick n) s = .next t ∧
      t.port n = { p with silence := p.silence + 1 } ∧ (∀ m, m ≠ n → t.port m = s.port m) ∧ t.due = due ∧
      SameBut [.ports, .due] s t) ∧
    (∀ q, p.state = .live → 4 ≤ p.silence → q = { p with
        state := .silent, silence := 0, latch := { p.latch with demand := 0, claim := false }, buttons := Edges.none,
        record := none, expected := none } →
      ∃ t, exec (.portTick n) s = .next t ∧ exec (.portSilenceExpiry n) s = .next t ∧ PortTook n q s t ∧
        t.cli = s.cli.tabled (portNotices n q s t) ∧ t.due = due ∧
        SameBut [.ports, .due, .aua, .wst, .cli] s t)

/-- The demand of a deflection: the offset from the centre, 0 within the dead-band, else the magnitude the curve gives
for the excess with the offset's sign, inverted under the reverse flag (R94, R95, R96, R97). -/
def Obligations.DemandOfDeflection : Prop :=
  ∀ (p : Shaping) (kind : UnitKind) (r x i f : Nat) (e m : Int),
    e = (if kind = .pedal ∧ (r : Int) - p.centre < 0 then 0 else (r : Int) - p.centre) →
    x = e.natAbs - p.deadband → i = x / 64 → f = x % 64 →
    m = (if 2048 ≤ x then (p.curve.getD 32 0 : Int)
      else p.curve.getD i 0 + Int.tdiv (((p.curve.getD (i + 1) 0 : Int) - p.curve.getD i 0) * f) 64) →
    (e.natAbs ≤ p.deadband → shape p kind r = 0) ∧
    (p.deadband < e.natAbs → shape p kind r =
      if p.reverse then (if 0 < e then -m else m) else (if 0 < e then m else -m))

/-- CRVW outside ON_AIR writes its run of points, each taken up to 16,384, and no other point or field; CRVR answers
the 33 points; CNTR outside ON_AIR makes the deflection in the port's latch the centre, is refused NO_SAMPLE where
there is none, and in ON_AIR is NOT_PERMITTED. No latch changes (R99 to R102). That CRVR's 33 points carry no count
byte is the model's choice (log entry 13). -/
def Obligations.ShaperRequests : Prop :=
  (∀ (tag : Byte) (n : Fin 4) (first : Nat) (vs : List Nat) (s : State), s.settled = true →
    s.consoleReady = true →
    (s.msc.mode ≠ .onAir → (s.dsh.get n).curve.length = 33 → 1 ≤ vs.length → first + vs.length ≤ 33 →
      (∀ v ∈ vs, v < 65536) →
      ∃ t, exec (.crvw .console tag n.val first vs) s = .next t ∧
        (∀ k, (t.dsh.get n).curve[k]? =
          if first ≤ k ∧ k < first + vs.length then (vs[k - first]?).map (min · 16384)
          else (s.dsh.get n).curve[k]?) ∧
        { t.dsh.get n with curve := [] } = { s.dsh.get n with curve := [] } ∧
        (∀ m, m ≠ n → t.dsh.get m = s.dsh.get m) ∧
        t.cli = answeredWith s.cli tag .crvw
          (.ok (u8 n.val ++ u8 first ++ listOf u16 (vs.map (min · 16384)))) ∧
        SameBut [.dsh, .cli] s t) ∧
    (∃ t, exec (.crvr .console tag n.val) s = .next t ∧
      t.cli = answeredWith s.cli tag .crvr
        (.ok (u8 n.val ++ (List.range 33).flatMap fun k => u16 ((s.dsh.get n).curve.getD k 0))) ∧
      SameBut [.cli] s t)) ∧
  ∀ (tag : Byte) (n : Fin 4) (s : State), s.settled = true → s.consoleReady = true →
    (∀ d, s.msc.mode ≠ .onAir → (s.port n).latch.deflection = some d →
      ∃ t, exec (.cntr .console tag n.val) s = .next t ∧ t.dsh.get n = { s.dsh.get n with centre := d } ∧
        (∀ m, m ≠ n → t.dsh.get m = s.dsh.get m) ∧ t.cli = answeredWith s.cli tag .cntr (.ok (u16 d)) ∧
        SameBut [.dsh, .cli] s t) ∧
    (s.msc.mode ≠ .onAir → (s.port n).latch.deflection = none →
      ∃ t, exec (.cntr .console tag n.val) s = .next t ∧
        t.cli = answeredWith s.cli tag .cntr (.refused .noSample n.val) ∧
        t.ede = { s.ede with refusal := some ⟨.console, .cntr, .noSample, n.val⟩ } ∧ SameBut [.ede, .cli] s t) ∧
    (s.msc.mode = .onAir → ∃ t, exec (.cntr .console tag n.val) s = .next t ∧
      t.cli = answeredWith s.cli tag .cntr .notPermitted ∧ SameBut [.cli] s t)

/-! ### Chapter 6: show time and pace -/

/-- A reference edge: ignored in FREE; in LOCKED a glitch when less than half a nominal period after the last tick,
else a tick; in LOST a recovery with a tick, LOCKED and REFERENCE_STATE (R105, R106, R108). The time of an edge is the
command's instant, or the time already reached where that is later (log entry 3); a tick is counted as delivered (log
entry 4). -/
def Obligations.ReferenceEdgeTaken : Prop :=
  ∀ (instant now : Nat) (s : State), s.settled = true → s.msc.resetLine = false → now = max s.tbp.now instant →
    (s.tbp.state = .free → ∃ t, exec (.referenceEdge instant) s = .next t ∧ t.tbp = { s.tbp with now := now } ∧
      SameBut [.tbp] s t) ∧
    (s.tbp.state = .locked → 2 * (now - s.tbp.lastTick) < s.tbp.rate.period →
      ∃ t, exec (.referenceEdge instant) s = .next t ∧
        t.tbp = { s.tbp with now := now, glitches := min (s.tbp.glitches + 1) 65535 } ∧ SameBut [.tbp] s t) ∧
    (s.tbp.state = .locked → s.tbp.rate.period ≤ 2 * (now - s.tbp.lastTick) →
      ∃ t, exec (.referenceEdge instant) s = .next t ∧ t.tbp = { s.tbp with now := now, lastTick := now } ∧
        t.due = s.deliverTick.due ∧ SameBut [.tbp, .due] s t) ∧
    (s.tbp.state = .lost → ∃ t, exec (.referenceEdge instant) s = .next t ∧
      t.tbp = { s.tbp with now := now, lastTick := now, state := .locked } ∧ t.due = s.deliverTick.due ∧
      t.cli = s.cli.tabled (raiseIn s.cli.notices .referenceState (.reference .locked)) ∧
      SameBut [.tbp, .due, .cli] s t)

/-- The internal generator ticks one nominal period after the last tick in FREE and LOST and not in LOCKED; in LOCKED a
loss, 3 nominal periods after the last tick, enters LOST with a tick and REFERENCE_STATE (R105, R107). A tick is counted
as delivered (log entry 4). That the loss counts the rate in force at the command, and so may date its tick before a
write of that rate, is the model's choice (log entry 27). -/
def Obligations.GeneratorAndLossTick : Prop :=
  ∀ s : State, s.settled = true → s.msc.resetLine = false →
    (s.tbp.state ≠ .locked → exec .referenceLoss s = .next s ∧ ∃ t, exec .internalTick s = .next t ∧
      t.tbp.lastTick = s.tbp.lastTick + s.tbp.rate.period ∧
      { t.tbp with lastTick := 0, now := 0 } = { s.tbp with lastTick := 0, now := 0 } ∧
      t.due = s.deliverTick.due ∧ SameBut [.tbp, .due] s t) ∧
    (s.tbp.state = .locked → exec .internalTick s = .next s ∧ ∃ t, exec .referenceLoss s = .next t ∧
      t.tbp.lastTick = s.tbp.lastTick + 3 * s.tbp.rate.period ∧ t.tbp.state = .lost ∧
      { t.tbp with lastTick := 0, now := 0, state := .locked } = { s.tbp with lastTick := 0, now := 0 } ∧
      t.due = s.deliverTick.due ∧
      t.cli = s.cli.tabled (raiseIn s.cli.notices .referenceState (.reference .lost)) ∧
      SameBut [.tbp, .due, .cli] s t)

/-- The show-time event: a running clock rises by one up to its top; each armed timer whose compare the clock has
reached is disarmed with its compare kept and raises CUE_TIMER, once for each in slot order; and a running clock past
the target out of the current story sets the story's overrun-reported flag, with BACKTIME_OVER exactly where it was
clear. No other notice is raised. CUE_TIMER fires one such timer, with its slot as detail, and leaves any other as it is
(R110, R112, R114). One delivered tick is counted as taken (log entry 4); that a CUE_TIMER with nothing to fire changes
nothing is the model's reading (log entry 5). -/
def Obligations.ShowTimeAndCueTimers : Prop :=
  (∀ s : State, s.settled = true → (s.scs.rundown.map (·.number)).Nodup →
    ∃ t, exec .showTimeTick s = .next t ∧
      t.tbp.clock = (if s.tbp.running then min (s.tbp.clock + 1) 4294967295 else s.tbp.clock) ∧
      (∀ k, t.tbp.timers.get k =
        if (s.tbp.timers.get k).armed ∧ (s.tbp.timers.get k).compare ≤ t.tbp.clock then
          { s.tbp.timers.get k with armed := false } else s.tbp.timers.get k) ∧
      { t.tbp with clock := 0, timers := s.tbp.timers } = { s.tbp with clock := 0 } ∧
      (∀ fired told : List NoticeEntry,
        fired = [(0 : Fin 4), 1, 2, 3].foldl (fun table k =>
          if (s.tbp.timers.get k).armed ∧ (s.tbp.timers.get k).compare ≤ t.tbp.clock then
            raiseIn table .cueTimer (.value k.val) else table) s.cli.notices →
        ((∃ (n target : Nat) (st : Story), s.tbp.running = true ∧ s.sce.currentStory = some n ∧
            s.scs.story? n = some st ∧ st.target = some target ∧ target < t.tbp.clock ∧ st.overrun = false ∧
            told = raiseIn fired .backtimeOver (.value n)) ∨
          ((∀ (n target : Nat) (st : Story), s.tbp.running = true → s.sce.currentStory = some n →
            s.scs.story? n = some st → st.target = some target → target < t.tbp.clock → st.overrun = true) ∧
            told = fired)) →
        t.cli = s.cli.tabled told) ∧
      t.scs = { s.scs with rundown := s.scs.rundown.map fun x =>
        if s.tbp.running = true ∧ s.sce.currentStory = some x.number ∧ x.target.any (· < t.tbp.clock) = true then
          { x with overrun := true } else x } ∧
      t.due = { s.due with showTime := s.due.showTime - 1 } ∧ SameBut [.tbp, .scs, .due, .cli] s t) ∧
  ∀ (k : Fin 4) (s : State), s.settled = true →
    ((s.tbp.timers.get k).armed = true → (s.tbp.timers.get k).compare ≤ s.tbp.clock →
      ∃ t, exec (.cueTimer k) s = .next t ∧
        t.tbp = { s.tbp with timers := s.tbp.timers.set k { s.tbp.timers.get k with armed := false } } ∧
        t.cli = s.cli.tabled (raiseIn s.cli.notices .cueTimer (.value k.val)) ∧ SameBut [.tbp, .cli] s t) ∧
    (((s.tbp.timers.get k).armed = false ∨ s.tbp.clock < (s.tbp.timers.get k).compare) →
      exec (.cueTimer k) s = .next s)

/-- CLKC starts, stops and sets the clock and nothing else; CUEA arms a timer with its compare, CUED disarms it keeping
the compare; each answers what it wrote (R111, R113). -/
def Obligations.ClockAndTimerRequests : Prop :=
  ∀ (tag : Byte) (v : Nat) (k : Fin 4) (s : State), s.settled = true → s.consoleReady = true → v < 4294967296 →
    (∃ t, exec (.clkc .console tag 0 none) s = .next t ∧ t.tbp = { s.tbp with running := true } ∧
      t.cli = answeredWith s.cli tag .clkc (.ok (u32 s.tbp.clock ++ u8 1)) ∧ SameBut [.tbp, .cli] s t) ∧
    (∃ t, exec (.clkc .console tag 1 none) s = .next t ∧ t.tbp = { s.tbp with running := false } ∧
      t.cli = answeredWith s.cli tag .clkc (.ok (u32 s.tbp.clock ++ u8 0)) ∧ SameBut [.tbp, .cli] s t) ∧
    (∃ t, exec (.clkc .console tag 2 (some v)) s = .next t ∧ t.tbp = { s.tbp with clock := v } ∧
      t.cli = answeredWith s.cli tag .clkc (.ok (u32 v ++ flag s.tbp.running)) ∧ SameBut [.tbp, .cli] s t) ∧
    (∃ t, exec (.cuea .console tag k.val v) s = .next t ∧
      t.tbp = { s.tbp with timers := s.tbp.timers.set k ⟨v, true⟩ } ∧
      t.cli = answeredWith s.cli tag .cuea (.ok (u32 v ++ u8 1)) ∧ SameBut [.tbp, .cli] s t) ∧
    (∃ t, exec (.cued .console tag k.val) s = .next t ∧
      t.tbp = { s.tbp with timers := s.tbp.timers.set k ⟨(s.tbp.timers.get k).compare, false⟩ } ∧
      t.cli = answeredWith s.cli tag .cued (.ok (u32 (s.tbp.timers.get k).compare ++ u8 0)) ∧
      SameBut [.tbp, .cli] s t)

/-- AMOD writes the auto mode, and a carried constant value taken up to 16,384, in one event; a change that keeps AUTO's
activity changes nothing else, any other re-evaluates the grant by the grant rule. The target of a step is 0 in SETUP
and LOADING and without a holder, the manual speed under CONSOLE, under a hand source its latch demand while its port is
LIVE or driven in DIAGNOSTIC and else 0, and under AUTO the auto demand: 0 in OFF, the constant value in CONSTANT and
where the current story has no target out, else the paced demand, with R from the position to the end of the story and F
from the clock to its target out. That is the maximum when no time is left, else the smallest whole number not less than
R / F, raised to the minimum and lowered to the maximum (R28, R115, R116, R117). That the response to AMOD carries the
constant value also where none is carried is the model's choice (log entry 17). -/
def Obligations.AutoModeAndPacedDemand : Prop :=
  (∀ (tag : Byte) (m : AutoMode) (c : Option Nat) (s : State), s.settled = true → s.consoleReady = true →
    (∀ v, c = some v → v < 65536) →
    ∃ t, exec (.amod .console tag m.code c) s = .next t ∧
      t.tbp = { s.tbp with autoMode := m, constant := (c.map (min · 16384)).getD s.tbp.constant } ∧
      t.cli = linkAfter s.cli (s.tallyNotices t.aua.holder)
        ⟨tag, Mnem.amod.bytes, .ok (u8 m.code ++ u16 t.tbp.constant)⟩ ∧
      GrantOnly s t ∧ Regranted s t ∧ SameBut [.tbp, .aua, .wst, .cli] s t ∧
      ((m = .off ↔ s.tbp.autoMode = .off) → SameBut [.tbp, .cli] s t) ∧
      (¬(m = .off ↔ s.tbp.autoMode = .off) → Reevaluated s t)) ∧
  (∀ (p : Nat) (s : State),
    (s.msc.mode = .setup ∨ s.msc.mode = .loading ∨ s.aua.holder = none → s.target p = 0) ∧
    (s.msc.mode ≠ .setup → s.msc.mode ≠ .loading →
      (s.aua.holder = some .console → s.target p = s.sce.manualSpeed) ∧
      (∀ n, s.aua.holder = some (.hand n) → s.target p =
        if (s.port n).state = .live ∨ (s.msc.mode = .diagnostic ∧ (s.port n).driven = true) then
          (s.port n).latch.demand else 0) ∧
      (s.aua.holder = some .auto → s.tbp.autoMode = .off → s.target p = 0) ∧
      (s.aua.holder = some .auto → s.tbp.autoMode = .constant → s.target p = s.tbp.constant) ∧
      ∀ (n : Nat) (story : Story), s.aua.holder = some .auto → s.tbp.autoMode = .pace →
        s.sce.currentStory = some n → s.scs.story? n = some story →
        (story.target = none → s.target p = s.tbp.constant) ∧
        ∀ target last o : Nat, story.target = some target → story.lines.getLast? = some last →
          s.scs.ordinal? last = some o →
          s.target p =
            pacedDemand s.tbp.paceMin s.tbp.paceMax ((o + 1) * 4096 - p) ((target : Int) - s.tbp.clock))) ∧
  ∀ (lo hi r : Nat) (f : Int), lo ≤ hi →
    (f ≤ 0 → pacedDemand lo hi r f = hi) ∧
    (0 < f → lo ≤ pacedDemand lo hi r f ∧ pacedDemand lo hi r f ≤ hi ∧
      (pacedDemand lo hi r f < hi → (r : Int) ≤ pacedDemand lo hi r f * f) ∧
      ∀ q : Nat, (r : Int) ≤ q * f → pacedDemand lo hi r f ≤ max lo q)

/-! ### Chapter 7: live editing -/

/-- EOPN on a slot that is not COPYING opens it with the edit carried, its slug cut to 16 cells, and 64 unwritten page
slots, and answers the kind and n; EABN closes an OPEN slot and leaves a CLOSED one; in COPYING both are answered BUSY.
ELIN writes one page slot of the open edit with the style, mark, cue number and the first 48 cells carried, and no
other; without an open edit it is refused NO_EDIT with the slot number (R121, R122, R123). -/
def Obligations.EditSlotRequests : Prop :=
  (∀ (link : Link) (tag : Byte) (e : EditParams) (n : Nat) (s : State), s.settled = true →
    s.linkReady link = true → (s.slot link).code ≠ 2 →
    (e.wellFormed = true → editInRange e = true → countInRange e n = true →
      ∃ t, exec (.eopn link tag (some e) n) s = .next t ∧
        t.slot link = .opened (takenEdit e) n (List.replicate 64 none) ∧
        t.ede = (s.setSlot link (t.slot link)).ede ∧
        t.link link = answeredWith (s.link link) tag .eopn (.ok (u8 e.code ++ u16 n)) ∧
        SameBut [.ede, linkBlock link] s t) ∧
    (∃ t, exec (.eabn link tag) s = .next t ∧ t.ede = (s.setSlot link .closed).ede ∧
      t.link link = answeredWith (s.link link) tag .eabn (.ok []) ∧ SameBut [.ede, linkBlock link] s t)) ∧
  (∀ (link : Link) (tag : Byte) (e : EditParams) (n : Nat) (s : State), s.settled = true →
    s.linkReady link = true → (s.slot link).code = 2 →
    (e.wellFormed = true → editInRange e = true → countInRange e n = true →
      ∃ t, exec (.eopn link tag (some e) n) s = .next t ∧
        t.link link = answeredWith (s.link link) tag .eopn .busy ∧ SameBut [linkBlock link] s t) ∧
    ∃ t, exec (.eabn link tag) s = .next t ∧ t.link link = answeredWith (s.link link) tag .eabn .busy ∧
      SameBut [linkBlock link] s t) ∧
  (∀ (link : Link) (tag : Byte) (k style mark : Nat) (cue : Option Nat) (text : List CharCell) (s : State),
    s.settled = true → s.linkReady link = true → (s.slot link).code ≠ 1 → k < 256 → style < 256 → mark < 256 →
    (∀ c, cue = some c → c < 256) → text.length < 256 →
    ∃ t, exec (.elin link tag k style mark cue text) s = .next t ∧
      t.ede = { s.ede with refusal := some ⟨link, .elin, .noEdit, k⟩ } ∧
      t.link link = answeredWith (s.link link) tag .elin (.refused .noEdit k) ∧
      SameBut [.ede, linkBlock link] s t) ∧
  ∀ (link : Link) (tag : Byte) (e : EditParams) (n k : Nat) (page : Page) (style : Style) (mark : Mark)
    (text : List CharCell) (s : State), s.settled = true → s.linkReady link = true →
    s.slot link = .opened e n page → k < n → n ≤ 64 → (∀ c, mark.cue? = some c → c < 256) → text.length < 256 →
    ∃ t, exec (.elin link tag k style.code mark.code mark.cue? text) s = .next t ∧
      t.ede = (s.setSlot link (.opened e n (page.set k (some ⟨style, mark, text.take 48⟩)))).ede ∧
      t.link link = answeredWith (s.link link) tag .elin (.ok (u8 k ++ u8 (text.take 48).length)) ∧
      SameBut [.ede, linkBlock link] s t

/-- ECMT on a slot that is not OPEN is refused NO_EDIT. On an open edit that fails a check it is refused with that
check's cause and detail, and where its lines cannot be reserved with the store's cause and the tag; the refusal record
is written, and slot, queue and store stay as they were. The checks, the first that fails deciding: INCOMPLETE with the
lowest unwritten page slot below n, QUEUE_FULL at 4 entries, DUPLICATE_TAG, and those that every evaluation makes again:
UNKNOWN_STORY, STORY_EXISTS and BAD_SPAN, then LOCKED where a lock entry in use that covers the story says no for the
link, then STORY_FULL above 2,048 lines and RUNDOWN_FULL at 256 stories. That a span whose first line comes after its
last has the last LID as detail is the model's choice (log entry 13). Where checks and reservation pass, an entry joins
the queue's tail with the reserved LIDs, in COPYING, the slot is COPYING, and the response carries tag, place, first LID
and count. An entry with no line to copy completes its copy directly after, as COPY_COMPLETION on the accepted state
does (R124 to R126, R128, R137, R140). The presence byte before the first LID and the one byte of the count are the
model's choice (log entry 13); that the completion of an empty copy comes in the same step is its reading (log entry
30). -/
def Obligations.CommitAcceptedOrRefused : Prop :=
  (∀ (link : Link) (tag : Byte) (e : EditParams) (n : Nat) (page : Page) (st : Store) (lids : List Nat)
    (s accepted : State), s.settled = true → s.linkReady link = true → s.slot link = .opened e n page →
    s.commitChecks link tag e n page = none → s.scs.reserve n = .ok (st, lids) →
    accepted = ({ s with scs := st }.setQueue
      (s.ede.queue ++ [(⟨link, tag, e, lids, .copying, false, false⟩ : Entry)])).setSlot link (.copying e n page) →
    (0 < n → ∃ t, exec (.ecmt link tag) s = .next t ∧ t.scs = st ∧ t.slot link = .copying e n page ∧
      t.ede = accepted.ede ∧
      t.link link = answeredWith (s.link link) tag .ecmt
        (.ok ([tag] ++ u8 s.ede.queue.length ++ opt u24 lids.head? ++ u8 lids.length)) ∧
      SameBut [.scs, .ede, linkBlock link] s t) ∧
    (n = 0 → copyingEntry? s.ede.queue link = none → ∃ t u, exec (.ecmt link tag) s = .next t ∧
      exec (.copyCompletion link) accepted = .next u ∧ t.slot link = .closed ∧ t.scs = u.scs ∧ t.ede = u.ede ∧
      t.sce = u.sce ∧ t.wst = u.wst ∧
      (t.link link).lastAnswers tag .ecmt
        (.ok ([tag] ++ u8 s.ede.queue.length ++ opt u24 lids.head? ++ u8 lids.length)) ∧
      SameBut [.scs, .ede, .sce, .wst, .cli, .rli] s t)) ∧
  (∀ (link : Link) (tag : Byte) (e : EditParams) (n detail : Nat) (page : Page) (cause : Cause) (s : State),
    s.settled = true → s.linkReady link = true → s.slot link = .opened e n page →
    (s.commitChecks link tag e n page = some (cause, detail) ∨
      (s.commitChecks link tag e n page = none ∧ s.scs.reserve n = .error cause ∧ detail = tag.toNat)) →
    ∃ t, exec (.ecmt link tag) s = .next t ∧ t.ede = { s.ede with refusal := some ⟨link, .ecmt, cause, detail⟩ } ∧
      t.link link = answeredWith (s.link link) tag .ecmt (.refused cause detail) ∧
      SameBut [.ede, linkBlock link] s t) ∧
  (∀ (link : Link) (tag : Byte) (s : State), s.settled = true → s.linkReady link = true → (s.slot link).code ≠ 1 →
    ∃ t, exec (.ecmt link tag) s = .next t ∧
      t.ede = { s.ede with refusal := some ⟨link, .ecmt, .noEdit, tag.toNat⟩ } ∧
      t.link link = answeredWith (s.link link) tag .ecmt (.refused .noEdit tag.toNat) ∧
      SameBut [.ede, linkBlock link] s t) ∧
  (∀ (link : Link) (tag : Byte) (e : EditParams) (n k : Nat) (page : Page) (s : State),
    (k < n → page.getD k none = none → (∀ j, j < k → page.getD j none ≠ none) →
      s.commitChecks link tag e n page = some (.incomplete, k)) ∧
    ((∀ j, j < n → page.getD j none ≠ none) →
      (4 ≤ s.ede.queue.length → s.commitChecks link tag e n page = some (.queueFull, tag.toNat)) ∧
      (s.ede.queue.length < 4 → (∃ q ∈ s.ede.queue, q.link = link ∧ q.tag = tag) →
        s.commitChecks link tag e n page = some (.duplicateTag, tag.toNat)) ∧
      (s.ede.queue.length < 4 → (∀ q ∈ s.ede.queue, q.link = link → q.tag ≠ tag) →
        s.commitChecks link tag e n page = s.entryChecks link e n))) ∧
  ∀ (link : Link) (n m f g : Nat) (after target : Option Nat) (slug : Option (List CharCell))
    (locked : Option (Cause × Nat)) (s : State),
    locked = (if ∃ k ∈ s.ede.locks, k.inUse = true ∧ k.low ≤ m ∧ m ≤ k.high ∧
      (if link = .console then k.console else k.rundown) = false then some (.locked, m) else none) →
    (s.scs.story? m = none →
      (∀ e ∈ [EditParams.linesReplace m f g, .linesInsert m after, .storyDrop m, .storyMove m after],
        s.entryChecks link e n = some (.unknownStory, m)) ∧
      s.entryChecks link (.storyInsert m none slug target) n =
        locked.or (if 256 ≤ s.scs.rundown.length then some (.rundownFull, m) else none) ∧
      s.entryChecks link (.storyInsert m (some f) slug target) n =
        if s.scs.story? f = none then some (.unknownStory, f)
        else locked.or (if 256 ≤ s.scs.rundown.length then some (.rundownFull, m) else none)) ∧
    ∀ a, s.scs.story? m = some a →
      s.entryChecks link (.linesReplace m f g) n =
        (if f ∉ a.lines then some (.badSpan, f)
        else if g ∉ a.lines ∨ a.lines.idxOf g < a.lines.idxOf f then some (.badSpan, g)
        else locked.or (if 2048 < a.lines.length - (a.lines.idxOf g + 1 - a.lines.idxOf f) + n then
          some (.storyFull, m) else none)) ∧
      s.entryChecks link (.linesInsert m none) n =
        locked.or (if 2048 < a.lines.length + n then some (.storyFull, m) else none) ∧
      s.entryChecks link (.linesInsert m (some f)) n =
        (if f ∉ a.lines then some (.badSpan, f)
        else locked.or (if 2048 < a.lines.length + n then some (.storyFull, m) else none)) ∧
      s.entryChecks link (.storyInsert m after slug target) n = some (.storyExists, m) ∧
      s.entryChecks link (.storyDrop m) n = locked ∧ s.entryChecks link (.storyMove m none) n = locked ∧
      s.entryChecks link (.storyMove m (some m)) n = some (.badSpan, m) ∧
      (f ≠ m → s.entryChecks link (.storyMove m (some f)) n =
        if s.scs.story? f = none then some (.unknownStory, f) else locked)

/-- The copy of an entry completes: the slot is CLOSED; a marked cancel removes the entry, frees its lines and raises
COMMIT_REFUSED CANCELLED on the tables that carry it; without one the page is in the reserved lines and the pass of the
same event follows. The page written, the line of the k-th reserved LID holds page slot k, its style, mark, cue number
and text, with its own LID and story as before; every other line, the reading order and the LID counter are as before
(R2, R128, R133). That the entry is WAITING as the pass finds it, and that the page is written whole at the
completion, is the model's reading (log entry 19); the pass that the removal starts is counted in a field of the model's
own (log entry 16). -/
def Obligations.CopyCompletes : Prop :=
  (∀ (link : Link) (e : Entry) (k : EditParams) (n : Nat) (page : Page) (s : State),
    s.slot link = .copying k n page → copyingEntry? s.ede.queue link = some e →
    ∃ t, exec (.copyCompletion link) s = .next t ∧ t.slot link = .closed ∧
      (e.cancelMarked = true → t.scs = (s.scs.writePage e.lids page).release e.lids ∧
        t.ede = (({ s with ede := { s.ede with passesDue := s.ede.passesDue + 1 } }.setQueue
          (withoutEntry s.ede.queue e.link e.tag)).setSlot link .closed).ede ∧
        CommitReported .commitRefused e (some .cancelled) s t ∧ SameBut [.scs, .ede, .cli, .rli] s t) ∧
      (e.cancelMarked = false → .next t = finish
        ((({ s with scs := s.scs.writePage e.lids page }.setSlot link .closed).setQueue
          (changeEntry s.ede.queue e.link e.tag (fun x => { x with state := .waiting }))).pass))) ∧
  ∀ (st u : Store) (lids : List Nat) (page : Page), lids.Nodup → u = st.writePage lids page →
    u.rundown = st.rundown ∧ u.nextLid = st.nextLid ∧ u.pool.length = st.pool.length ∧
    ∀ (i : Nat) (l : PoolLine), st.pool[i]? = some l →
      (l.lid ∉ lids → u.pool[i]? = some l) ∧
      ∀ (k : Nat) (style : Style) (mark : Mark) (text : List CharCell), lids[k]? = some l.lid →
        page[k]? = some (some ⟨style, mark, text⟩) →
        u.pool[i]? = some ⟨l.lid, l.story, some ⟨style, mark, text⟩⟩

/-- A pass passes over the entries in COPYING. It makes every entry WAITING that touches the story of one of them. The
first other entry, where no earlier one touches its story: its checks failing removes it, freeing its lines, with the
refusal record and COMMIT_REFUSED; in ON_AIR with its span in the guard window it becomes DEFERRED, with COMMIT_DEFERRED
the first time only, and an entry behind it on the same story WAITING; else it is applied, with COMMIT_DONE, and leaves
the queue, the others keeping their order. A pass in ON_AIR leaves rundown and engine as they were, or has applied one
entry whose span does not meet the guard window. A span meets it where an ordinal of its lines lies from guard above
below the anchor's to guard below above it, and never with an empty anchor. The span is the lines replaced, or dropped
or moved with their story; of lines inserted the after-line and the next in reading order, or the story's first; of a
story inserted, or put into its new place, the last line before that place and the first after it (R4, R10, R129 to
R131, R133). The passes still to be made are counted in a field of the model's own (log entry 16). -/
def Obligations.PassTakesOneEntry : Prop :=
  (∀ (pre rest : List Entry) (e : Entry) (s : State), s.ede.queue = pre ++ e :: rest →
    (∀ q ∈ pre, q.state = .copying ∧ editStory q.edit ≠ editStory e.edit) → e.state ≠ .copying →
    (s.entryChecks e.link e.edit e.lids.length = none → (s.msc.mode ≠ .onAir ∨ s.meetsGuard e.edit = false) →
      ∃ t, exec .queuePass s = .next t ∧ t.scs = s.scs.applied e.edit e.lids ∧ t.ede.queue = pre ++ rest ∧
        0 < t.ede.passesDue ∧ t.ede.refusal = s.ede.refusal ∧
        t.cli.reports .commitDone (.commit e.link e.tag none) ∧
        t.rli = s.rli.tabled (s.ownCommit .commitDone e.link e.tag none) ∧ Restaged s t ∧
        SameBut [.scs, .ede, .sce, .wst, .cli, .rli] s t) ∧
    (∀ cause detail, s.entryChecks e.link e.edit e.lids.length = some (cause, detail) →
      ∃ t, exec .queuePass s = .next t ∧ t.scs = s.scs.release e.lids ∧
        t.ede = { s.ede with queue := pre ++ rest, passesDue := s.ede.passesDue - 1 + 1,
                             refusal := some ⟨e.link, .ecmt, cause, detail⟩ } ∧
        CommitReported .commitRefused e (some cause) s t ∧ SameBut [.scs, .ede, .cli, .rli] s t) ∧
    (s.settled = true → s.entryChecks e.link e.edit e.lids.length = none → s.msc.mode = .onAir →
      s.meetsGuard e.edit = true →
      (∀ x ∈ rest, x.state ≠ .copying ∧ editStory x.edit = editStory e.edit) →
      ∃ t, exec .queuePass s = .next t ∧
        t.ede = { s.ede with
          queue := pre ++ { e with state := .deferred, deferredSent := true } ::
            rest.map (fun x => { x with state := .waiting }),
          passesDue := s.ede.passesDue - 1 } ∧
        (e.deferredSent = false → CommitReported .commitDeferred e none s t) ∧
        (e.deferredSent = true → t.cli = s.cli ∧ t.rli = s.rli) ∧ SameBut [.ede, .cli, .rli] s t)) ∧
  (∀ (pre rest : List Entry) (s : State), s.settled = true → s.ede.queue = pre ++ rest →
    (∀ q ∈ pre, q.state = .copying) →
    (∀ x ∈ rest, x.state ≠ .copying ∧ ∃ q ∈ pre, editStory q.edit = editStory x.edit) →
    ∃ t, exec .queuePass s = .next t ∧
      t.ede = { s.ede with
        queue := pre ++ rest.map (fun x => { x with state := .waiting }), passesDue := s.ede.passesDue - 1 } ∧
      SameBut [.ede] s t) ∧
  (∀ s t : State, s.msc.mode = .onAir → exec .queuePass s = .next t →
    (t.scs.rundown = s.scs.rundown ∧ t.sce = s.sce) ∨
      ∃ e ∈ s.ede.queue, e.state ≠ .copying ∧ s.meetsGuard e.edit = false ∧
        s.entryChecks e.link e.edit e.lids.length = none ∧ t.scs = s.scs.applied e.edit e.lids) ∧
  (∀ (e : EditParams) (s : State), s.meetsGuard e = true ↔
    ∃ anchor a lid o, s.sce.anchor = some anchor ∧ s.scs.ordinal? anchor = some a ∧ lid ∈ s.scs.affectedSpan e ∧
      s.scs.ordinal? lid = some o ∧ a ≤ o + s.ede.guardAbove ∧ o ≤ a + s.ede.guardBelow) ∧
  (∀ (st : Store) (before rest : List Story) (a : Story) (n : Nat) (slug : Option (List CharCell))
    (target : Option Nat), (st.rundown.map (·.number)).Nodup → st.order.Nodup → st.rundown = before ++ a :: rest →
    (∀ (l1 span l2 : List Nat) (f g : Nat), a.lines = l1 ++ span ++ l2 → span.head? = some f →
      span.getLast? = some g → st.affectedSpan (.linesReplace a.number f g) = span) ∧
    (∀ (l1 l2 : List Nat) (g : Nat), st.order = l1 ++ g :: l2 →
      st.affectedSpan (.linesInsert n (some g)) = g :: l2.head?.toList) ∧
    st.affectedSpan (.linesInsert a.number none) = a.lines.head?.toList ∧
    st.affectedSpan (.storyInsert n none slug target) = st.order.head?.toList ∧
    st.affectedSpan (.storyInsert n (some a.number) slug target) =
      ((before ++ [a]).flatMap (·.lines)).getLast?.toList ++ (rest.flatMap (·.lines)).head?.toList ∧
    st.affectedSpan (.storyDrop a.number) = a.lines ∧
    st.affectedSpan (.storyMove a.number none) = a.lines ++ ((before ++ rest).flatMap (·.lines)).head?.toList) ∧
  ∀ (st : Store) (before between rest : List Story) (a x : Story), (st.rundown.map (·.number)).Nodup →
    (st.rundown = before ++ x :: (between ++ a :: rest) →
      st.affectedSpan (.storyMove x.number (some a.number)) = x.lines ++
        ((before ++ between ++ [a]).flatMap (·.lines)).getLast?.toList ++ (rest.flatMap (·.lines)).head?.toList) ∧
    (st.rundown = before ++ a :: (between ++ x :: rest) →
      st.affectedSpan (.storyMove x.number (some a.number)) = x.lines ++
        ((before ++ [a]).flatMap (·.lines)).getLast?.toList ++ ((between ++ rest).flatMap (·.lines)).head?.toList)

/-- What an apply does to the scroll engine. An anchor among the removed lines becomes the first replacement line, else
the line after the removed run, else the line before it, else empty, at fraction 0; with no line left v is 0. An anchor
not removed is kept, with fraction 0 where it has become the last line. An empty anchor takes the first line of a script
that was empty. State, pending jump and manual speed are kept; an anchor that changes line makes a pass due beside that
of the removal, and gives its story as the current one, with STORY_AT_EYE where that is new; the stager is triggered
(R22, R23, R43 to R45, R47, R132). -/
def Obligations.ApplyMovesEngine : Prop :=
  ∀ (e : Entry) (rest : List Entry) (removed : List Nat) (after : Store) (s : State), s.storeOk = true →
    s.anchorOk = true → s.ede.queue = e :: rest → e.state ≠ .copying →
    s.entryChecks e.link e.edit e.lids.length = none → (s.msc.mode ≠ .onAir ∨ s.meetsGuard e.edit = false) →
    removed = s.scs.removedBy e.edit → after = s.scs.applied e.edit e.lids →
    ∃ t, exec .queuePass s = .next t ∧ t.scs = after ∧ Restaged s t ∧
      t.cli = s.cli.tabled (storyTold (raiseIn s.cli.notices .commitDone (.commit e.link e.tag none))
        s.sce.currentStory t.sce.currentStory) ∧
      (∀ a, s.sce.anchor = some a → a ∉ removed →
        t.sce = { s.sce with fraction := if after.order.getLast? = some a then 0 else s.sce.fraction } ∧
        t.ede.passesDue = s.ede.passesDue - 1 + 1) ∧
      (∀ (a : Nat) (x : Option Nat) (l1 l2 : List Nat), s.sce.anchor = some a → a ∈ removed →
        s.scs.order = l1 ++ removed ++ l2 →
        x = ((if isReplace e.edit then e.lids.head? else none).or (l2.head?.or l1.getLast?)) →
        t.sce = { s.sce with
          anchor := x, fraction := 0, velocity := if x = none then 0 else s.sce.velocity,
          currentStory := x.bind after.storyOfLine? } ∧
        t.ede.passesDue = s.ede.passesDue - 1 + 2) ∧
      (s.sce.anchor = none →
        t.sce = { s.sce with
          anchor := after.order.head?, currentStory := after.order.head?.bind after.storyOfLine? } ∧
        t.ede.passesDue = s.ede.passesDue - 1 + if after.order = [] then 1 else 2)

/-- QCAN marks an entry in COPYING, and removes any other at once, freeing its lines with COMMIT_REFUSED CANCELLED on
the tables that carry it; from the rundown link an entry of the console link is NOT_PERMITTED. QFRC applies a DEFERRED
entry whose checks pass, whatever the mode and the guard window, and removes one whose checks fail, with the cause in
COMMIT_REFUSED, in the response and in the refusal record as QFRC's; an entry in COPYING or WAITING is refused ORDER.
Both refuse an entry that is not in the queue UNKNOWN_ENTRY (R134, R135). The data byte of QCAN, 1 for marked and 0 for
removed, is the model's choice (log entry 13). -/
def Obligations.CancelAndForce : Prop :=
  (∀ (link : Link) (tag : Byte) (e : Entry) (s : State), s.settled = true → s.linkReady link = true →
    (link = .rundown → e.link = .rundown) → findEntry? s.ede.queue e.link e.tag = some e →
    (e.state = .copying → ∃ t, exec (.qcan link tag e.link.code e.tag.toNat) s = .next t ∧
      t.ede = { s.ede with
        queue := changeEntry s.ede.queue e.link e.tag (fun x => { x with cancelMarked := true }) } ∧
      t.link link = answeredWith (s.link link) tag .qcan (.ok (u8 1)) ∧ SameBut [.ede, linkBlock link] s t) ∧
    (e.state ≠ .copying → ∃ t, exec (.qcan link tag e.link.code e.tag.toNat) s = .next t ∧
      t.scs = s.scs.release e.lids ∧
      t.ede = { s.ede with
        queue := withoutEntry s.ede.queue e.link e.tag, passesDue := s.ede.passesDue + 1 } ∧
      t.link link = linkAfter (s.link link)
        (raiseIn (s.link link).notices .commitRefused (.commit e.link e.tag (some .cancelled)))
        ⟨tag, Mnem.qcan.bytes, .ok (u8 0)⟩ ∧
      (link = .console → t.rli = s.rli.tabled (s.ownCommit .commitRefused e.link e.tag (some .cancelled))) ∧
      (link = .rundown →
        t.cli = s.cli.tabled (raiseIn s.cli.notices .commitRefused (.commit e.link e.tag (some .cancelled)))) ∧
      SameBut [.scs, .ede, .cli, .rli] s t)) ∧
  (∀ (link entryLink : Link) (tag entryTag : Byte) (s : State), s.settled = true → s.linkReady link = true →
    (link = .rundown → entryLink = .console → ∃ t,
      exec (.qcan link tag entryLink.code entryTag.toNat) s = .next t ∧
        t.rli = answeredWith s.rli tag .qcan .notPermitted ∧ SameBut [.rli] s t) ∧
    ((link = .rundown → entryLink = .rundown) → findEntry? s.ede.queue entryLink entryTag = none → ∃ t,
      exec (.qcan link tag entryLink.code entryTag.toNat) s = .next t ∧
        t.ede = { s.ede with refusal := some ⟨link, .qcan, .unknownEntry, entryTag.toNat⟩ } ∧
        t.link link = answeredWith (s.link link) tag .qcan (.refused .unknownEntry entryTag.toNat) ∧
        SameBut [.ede, linkBlock link] s t) ∧
    (∀ cause, link = .console →
      ((findEntry? s.ede.queue entryLink entryTag = none ∧ cause = .unknownEntry) ∨
        (∃ e, findEntry? s.ede.queue entryLink entryTag = some e ∧ e.state ≠ .deferred ∧ cause = .order)) →
      ∃ t, exec (.qfrc link tag entryLink.code entryTag.toNat) s = .next t ∧
        t.ede = { s.ede with refusal := some ⟨.console, .qfrc, cause, entryTag.toNat⟩ } ∧
        t.cli = answeredWith s.cli tag .qfrc (.refused cause entryTag.toNat) ∧ SameBut [.ede, .cli] s t)) ∧
  ∀ (tag : Byte) (e : Entry) (s : State), s.settled = true → s.consoleReady = true →
    findEntry? s.ede.queue e.link e.tag = some e →
    e.state = .deferred → waitsBehind (earlierThan s.ede.queue e) e = false →
    (s.entryChecks e.link e.edit e.lids.length = none →
      ∃ t, exec (.qfrc .console tag e.link.code e.tag.toNat) s = .next t ∧
        t.scs = s.scs.applied e.edit e.lids ∧ t.ede.queue = withoutEntry s.ede.queue e.link e.tag ∧
        0 < t.ede.passesDue ∧ t.cli.lastAnswers tag .qfrc (.ok []) ∧
        t.cli.reports .commitDone (.commit e.link e.tag none) ∧
        t.rli = s.rli.tabled (s.ownCommit .commitDone e.link e.tag none) ∧ Restaged s t ∧
        SameBut [.scs, .ede, .sce, .wst, .cli, .rli] s t) ∧
    (∀ cause detail, s.entryChecks e.link e.edit e.lids.length = some (cause, detail) →
      ∃ t, exec (.qfrc .console tag e.link.code e.tag.toNat) s = .next t ∧ t.scs = s.scs.release e.lids ∧
        t.ede = { s.ede with
          queue := withoutEntry s.ede.queue e.link e.tag, passesDue := s.ede.passesDue + 1,
          refusal := some ⟨.console, .qfrc, cause, detail⟩ } ∧
        t.cli = linkAfter s.cli
          (raiseIn s.cli.notices .commitRefused (.commit e.link e.tag (some cause)))
          ⟨tag, Mnem.qfrc.bytes, .refused cause detail⟩ ∧
        t.rli = s.rli.tabled (s.ownCommit .commitRefused e.link e.tag (some cause)) ∧
        SameBut [.scs, .ede, .cli, .rli] s t)

/-- SLCK writes an entry that is not sticky whole and makes a pass due, and is refused STICKY otherwise. TGTS on a
story of the rundown that is not LOCKED for the link writes its target out and clears its overrun-reported flag, in no
other story and no other field (R138, R139). That the response to SLCK carries the six fields written is the model's
choice (log entry 13). -/
def Obligations.LocksAndTargets : Prop :=
  (∀ (tag : Byte) (k : Nat) (old new : LockEntry) (s : State), s.settled = true → s.consoleReady = true → k < 8 →
    s.ede.locks[k]? = some old → new.ok = true →
    (old.sticky = false → ∃ t,
      exec (.slck .console tag k new.low new.high new.console new.rundown new.sticky new.inUse) s = .next t ∧
        t.ede = { s.ede with locks := s.ede.locks.set k new, passesDue := s.ede.passesDue + 1 } ∧
        t.cli = answeredWith s.cli tag .slck (.ok (lockData new)) ∧ SameBut [.ede, .cli] s t) ∧
    (old.sticky = true → ∃ t,
      exec (.slck .console tag k new.low new.high new.console new.rundown new.sticky new.inUse) s = .next t ∧
        t.ede = { s.ede with refusal := some ⟨.console, .slck, .sticky, k⟩ } ∧
        t.cli = answeredWith s.cli tag .slck (.refused .sticky k) ∧ SameBut [.ede, .cli] s t)) ∧
  ∀ (link : Link) (tag : Byte) (n : Nat) (target : Option Nat) (s : State), s.settled = true →
    s.linkReady link = true → n < 65536 → (∀ v, target = some v → v < 4294967296) →
    (s.scs.story? n).isSome = true → s.ede.lockedFor link n = false →
    ∃ t, exec (.tgts link tag n target) s = .next t ∧
      t.scs = { s.scs with rundown := s.scs.rundown.map fun x =>
        if x.number = n then { x with target := target, overrun := false } else x } ∧
      t.link link = answeredWith (s.link link) tag .tgts (.ok (u16 n ++ opt u32 target)) ∧
      SameBut [.scs, linkBlock link] s t

/-! ### Chapter 8: window staging and line outputs -/

/-- Window row k shows the line at ordinal A − E + k, and is blank below 0, above L − 1 and with an empty anchor (R145).
-/
def Obligations.WindowRowsAroundEye : Prop :=
  ∀ (st : Store) (rows eyeRow k : Nat), k < rows →
    (windowRows st none rows eyeRow)[k]? = some .blank ∧
    ∀ a, (a + k < eyeRow → (windowRows st (some a) rows eyeRow)[k]? = some .blank) ∧
      (eyeRow ≤ a + k → st.order.length ≤ a + k - eyeRow →
        (windowRows st (some a) rows eyeRow)[k]? = some .blank) ∧
      ∀ lid l story c, eyeRow ≤ a + k → st.order[a + k - eyeRow]? = some lid → st.line? lid = some l →
        l.story = some story → l.content = some c →
        (windowRows st (some a) rows eyeRow)[k]? = some (.line lid story c.style c.mark c.text)

/-- A staging trigger starts a staging with its snapshot in IDLE, and sets restage-pending and nothing more in STAGING;
the snapshot takes fraction, eye row, holder, scroll state and the rows of the window as they stand. A staging
completion makes the built frame the latest under the next sequence, 1 after the top; a pending restage starts the next
staging with a snapshot of the state as it stands, and clears the flag (R148, R149, R150). -/
def Obligations.StagingCompletes : Prop :=
  (∀ s : State,
    (s.wst.buffer = none → s.trigger = { s with wst := { s.wst with buffer := some s.snapshot } }) ∧
    (s.wst.buffer ≠ none → s.trigger = { s with wst := { s.wst with restage := true } }) ∧
    s.snapshot = ⟨s.sce.fraction, s.wst.eyeRow, s.aua.holder, s.sce.state,
      windowRows s.scs (s.sce.anchor.bind s.scs.ordinal?) s.wst.rows s.wst.eyeRow⟩) ∧
  ∀ (f : Frame) (s : State), s.settled = true → s.wst.buffer = some f →
    ∃ t, exec .stagingCompletion s = .next t ∧
      t.wst.sequence = (if s.wst.sequence = 4294967295 then 1 else s.wst.sequence + 1) ∧
      t.wst.latest = some ⟨t.wst.sequence, f⟩ ∧ t.wst.restage = false ∧ t.wst.rows = s.wst.rows ∧
      t.wst.eyeRow = s.wst.eyeRow ∧ t.wst.buffer = (if s.wst.restage then some s.snapshot else none) ∧
      SameBut [.wst] s t

/-- A slot at an output that is not sending: blank STATIC while nothing is staged, NEW for a frame not sent yet,
UNDERRUN with its counter and OUTPUT_UNDERRUN while a staging is in flight, else STATIC; the packet carries the counter,
which rises by one from 65,535 to 0, and under the mirror the cells of every row in reverse order with every other field
as staged. On the data line pass the start byte, the length of the content, the content in its order (counter, kind,
fraction, eye row, row count, holder, scroll state and the row records) and the CRC-16 over length and content (R154,
R155, R185). One delivered tick is counted as taken (log entry 4). -/
def Obligations.SlotSendsPacket : Prop :=
  (∀ (o : OutputId) (c : Instr) (s : State), (s.out o).sending = none →
    (c = .outputTick o ∧ (s.out o).config.enable = true ∧ (s.out o).config.framing = .master) ∨
      (c = .frameSyncRequest o ∧ (s.out o).config.enable = true ∧ (s.out o).config.framing = .slave) →
    ∃ t p, exec c s = .next t ∧ (t.out o).sending = some p ∧ p.counter = (s.out o).packetCounter ∧
      (t.out o).packetCounter = ((s.out o).packetCounter + 1) % 65536 ∧ (t.out o).config = (s.out o).config ∧
      p.syncMark = decide ((s.out o).config.framing = .master) ∧
      (s.wst.latest = none → p.kind = .static ∧ (t.out o).lastSent = (s.out o).lastSent ∧
        p.frame = ⟨0, s.wst.eyeRow, none, .running, List.replicate s.wst.rows .blank⟩) ∧
      (∀ l, s.wst.latest = some l → p.frame = { l.frame with rows := l.frame.rows.map fun r => match r with
          | .blank => .blank
          | .line lid story style mark text =>
            .line lid story style mark (if (s.out o).config.mirror then text.reverse else text) } ∧
        (t.out o).lastSent = some l.sequence ∧
        p.kind = (if (s.out o).lastSent ≠ some l.sequence then .new
          else if s.wst.buffer.isSome then .underrun else .static)) ∧
      (p.kind = .underrun → (t.out o).underrun = min ((s.out o).underrun + 1) 65535 ∧
        t.cli = s.cli.tabled (raiseIn s.cli.notices .outputUnderrun (.output o))) ∧
      (p.kind ≠ .underrun → (t.out o).underrun = (s.out o).underrun ∧ t.cli = s.cli.tabled s.cli.notices) ∧
      (t.out o).late = (s.out o).late ∧ (t.out o).collision = (s.out o).collision ∧
      t.due = (if c = .outputTick o then (s.outTickTaken o).due else s.due) ∧
      SameBut [outBlock o, .due, .cli, .rli] s t) ∧
  ∀ (p : Packet) (content : List Byte),
    content = u16 p.counter ++ u8 (match p.kind with | .new => 1 | .static => 2 | .underrun => 3) ++
      u16 p.frame.fraction ++ u8 p.frame.eyeRow ++ u8 p.frame.rows.length ++ u8 (holderCode p.frame.holder) ++
      u8 p.frame.scroll.code ++ (p.frame.rows.map fun r => match r with
        | .blank => [0]
        | .line lid story style mark text => [1] ++ u24 lid ++ u16 story ++ u8 style.code ++ u8 mark.code ++
            u8 (mark.cue?.getD 0) ++ u8 text.length ++ text.flatMap (fun c => u16 c.toNat)).flatten →
    p.bytes = [0x5A] ++ u16 content.length ++ content ++ u16 (crc16 (u16 content.length ++ content)).toNat

/-- A tick or request that meets an output in SENDING is counted late or as a collision and opens no slot; a send
completion leaves the output IDLE and sets nothing further. A tick at an output that is disabled or in SLAVE, and a
request on the pin of one that is disabled or in MASTER, open nothing and count nothing, sending or not (R153, R155,
R156). One delivered tick is counted as taken (log entry 4). -/
def Obligations.SendingOutputSkipsSlots : Prop :=
  (∀ (o : OutputId) (p : Packet) (s : State), s.settled = true → (s.out o).sending = some p →
    ((s.out o).config.enable = true → (s.out o).config.framing = .master → ∃ t, exec (.outputTick o) s = .next t ∧
      t.out o = { s.out o with late := min ((s.out o).late + 1) 65535 } ∧ t.due = (s.outTickTaken o).due ∧
      SameBut [outBlock o, .due] s t) ∧
    ((s.out o).config.enable = true → (s.out o).config.framing = .slave →
      ∃ t, exec (.frameSyncRequest o) s = .next t ∧
        t.out o = { s.out o with collision := min ((s.out o).collision + 1) 65535 } ∧ SameBut [outBlock o] s t) ∧
    ∃ t, exec (.packetSendCompletion o) s = .next t ∧ t.out o = { s.out o with sending := none } ∧
      SameBut [outBlock o] s t) ∧
  ∀ (o : OutputId) (s : State), s.settled = true →
    ((s.out o).config.enable = false ∨ (s.out o).config.framing = .slave → ∃ t, exec (.outputTick o) s = .next t ∧
      t.due = (s.outTickTaken o).due ∧ SameBut [.due] s t) ∧
    ((s.out o).config.enable = false ∨ (s.out o).config.framing = .master → exec (.frameSyncRequest o) s = .next s) ∧
    (s.outTickTaken .a).due = { s.due with outA := s.due.outA - 1 } ∧
    (s.outTickTaken .b).due = { s.due with outB := s.due.outB - 1 }

/-! ### Chapter 9: modes, settings and start-up -/

/-- The reset line sets LOADING, image UNKNOWN, store operation LOAD and every block at its reset values: the player,
the store, the edit engine, the four ports with tracker, last kind and button records, the shaping parameters, the
arbiter, the engine, the timebase, the stager, the outputs, and the links with their notice kinds. The waiting commands
are the sender's, and the settings memory keeps what it holds; of a save in flight it holds the words written: a check
word one too great, or the whole image after the last. At its release the settings load begins and the generator's
cadence starts (R20, R50, R89, R105, R119, R143, R151, R159, R165, R166, R182). The instants of the line and of the
release are the commands' (log entry 3), how many words had been written comes with the command, which counts the first
in any case (log entry 10), and ticks and passes due are counts of the model's own (log entry 16). -/
def Obligations.ResetLineAndRelease : Prop :=
  (∀ (w : Nat) (s : State), ∃ t, exec (.resetLine w) s = .next t ∧
    t.msc = ⟨.loading, .unknown, .load, [],
      ⟨List.replicate 256 ⟨0, 2048, ⟨⟨false, false, false, false⟩, false⟩, 1⟩, 0, false, false, some 0, 0⟩, true⟩ ∧
    t.scs = ⟨[], [], 1⟩ ∧ t.sce = ⟨none, 0, 0, .running, none, 0, none, 48, 96⟩ ∧
    t.ede = ⟨.closed, .closed, [], List.replicate 8 ⟨1, 1, true, true, false, false⟩, none, 2, 12, 0⟩ ∧
    (∀ n, t.port n = ⟨.absent, .hunt, ⟨0, 0, 0, 0, 0, 0, 0⟩, 0, 0, none, none, ⟨none, 0, none, false⟩,
      ⟨false, false, false, false⟩, none, ⟨false, false, false, false⟩, false⟩) ∧
    (∀ n, t.dsh.get n = ⟨2048, 32, false, (List.range 33).map (64 * ·)⟩) ∧
    t.aua = ⟨⟨true, 12⟩, ⟨⟨true, 8⟩, ⟨true, 8⟩, ⟨true, 8⟩, ⟨true, 8⟩⟩, ⟨true, 4⟩, 0, none, none, false, 0, 25⟩ ∧
    t.tbp = ⟨false, .r50, .free, s.tbp.now, s.tbp.now, 0, 0, false,
      ⟨⟨0, false⟩, ⟨0, false⟩, ⟨0, false⟩, ⟨0, false⟩⟩, .off, 200, 16, 4096⟩ ∧
    t.wst = ⟨12, 3, none, false, none, 0⟩ ∧
    t.loa = ⟨⟨true, .master, true⟩, none, none, 0, 0, 0, 0⟩ ∧
    t.lob = ⟨⟨true, .master, false⟩, none, none, 0, 0, 0, 0⟩ ∧
    t.cli = ⟨.hunting, [], none, [], none,
      [.authorityChanged, .heldAtMark, .cueLine, .storyAtEye, .commitDone, .commitDeferred, .commitRefused, .portState,
        .referenceState, .outputUnderrun, .cueTimer, .backtimeOver, .jumpDiscarded, .settingsState].map
          (fun k => ⟨k, true, false, 0, none⟩), 0⟩ ∧
    t.rli = ⟨.hunting, [], none, [], none,
      [.commitDone, .commitDeferred, .commitRefused].map (fun k => ⟨k, true, false, 0, none⟩), 0⟩ ∧
    t.due = ⟨0, 0, ⟨0, 0, 0, 0⟩, 0, 0, 0, 0⟩ ∧ t.pending = s.pending ∧
    (s.msc.storeOp ≠ .save → t.mem = s.mem) ∧
    (s.memoryOk = true → s.msc.storeOp = .save → s.msc.snapshot.length = 179 →
      (w ≤ 180 → memWord t.mem 179 = checkSum s.msc.snapshot + 1) ∧
      (181 ≤ w → readImage t.mem = imageOf s.msc.snapshot) ∧
      ∀ a, 360 ≤ a → memRead t.mem a = memRead s.mem a)) ∧
  ∀ (instant : Nat) (s : State), s.settled = true → s.msc.resetLine = true → s.msc.storeOp = .load →
    ∃ t, exec (.resetRelease instant) s = .next t ∧ t.msc = { s.msc with resetLine := false } ∧
      t.msc.loading = true ∧
      t.tbp = { s.tbp with lastTick := max s.tbp.now instant, now := max s.tbp.now instant } ∧
      SameBut [.msc, .tbp] s t

/-- The settings words written and read give the settings back, for every settings within their ranges, in an image that
passes its check. Each of the 179 words stands at its index: port p's enable, centre, dead-band, reverse and 33 curve
points from 37p on, source s's enable and priority from 148 + 2s on, then threshold, hold-over value, slew limits, pace
limits, constant value, window rows, eye row, guard sizes, the enable, framing and mirror of the two outputs, rate code
and reference selection at 160 to 178. Word i is bytes 2i and 2i + 1 of the memory, most significant first. Whatever the
words, the settings read from them lie within their ranges (R163, R164, R186). -/
def Obligations.SettingsImageRoundTrip : Prop :=
  (∀ v : Settings, v.inRange = true → imageGood (imageOf v.words) = true ∧ settingsOf (imageOf v.words) = v ∧
    v.words.length = 179 ∧ ∀ w : Nat → Nat, (∀ i, w i = ((imageOf v.words).getD i 0).toNat) →
      (∀ p : Fin 4, w (37 * p.val) = (v.portEnable.get p).toNat ∧ w (37 * p.val + 1) = (v.shaping.get p).centre ∧
        w (37 * p.val + 2) = (v.shaping.get p).deadband ∧ w (37 * p.val + 3) = (v.shaping.get p).reverse.toNat ∧
        (∀ k, k < 33 → w (37 * p.val + 4 + k) = (v.shaping.get p).curve.getD k 0) ∧
        w (150 + 2 * p.val) = (v.hand.get p).enable.toNat ∧ w (151 + 2 * p.val) = (v.hand.get p).priority) ∧
      w 148 = v.console.enable.toNat ∧ w 149 = v.console.priority ∧ w 158 = v.auto.enable.toNat ∧
      w 159 = v.auto.priority ∧ w 160 = v.threshold ∧ w 161 = v.holdOverValue ∧ w 162 = v.accel ∧ w 163 = v.decel ∧
      w 164 = v.paceMin ∧ w 165 = v.paceMax ∧ w 166 = v.constant ∧ w 167 = v.rows ∧ w 168 = v.eyeRow ∧
      w 169 = v.guardAbove ∧ w 170 = v.guardBelow ∧
      w 171 = v.outA.enable.toNat ∧ w 172 = (if v.outA.framing = .master then 0 else 1) ∧
      w 173 = v.outA.mirror.toNat ∧
      w 174 = v.outB.enable.toNat ∧ w 175 = (if v.outB.framing = .master then 0 else 1) ∧
      w 176 = v.outB.mirror.toNat ∧
      w 177 = (match v.rate with | .r50 => 0 | .r5994 => 1 | .r60 => 2) ∧ w 178 = v.refSelect.toNat) ∧
  (∀ image : List Word16, (settingsOf image).inRange = true) ∧
  ∀ (mem : List Host.Cell) (i : Nat), i < 180 → ∃ w : Word16, (readImage mem)[i]? = some w ∧
    w.toNat = 256 * (memRead mem (2 * i)).toNat + (memRead mem (2 * i + 1)).toNat

/-- A load completion with a good image in the memory hands every field its value and leaves the image VALID; with a bad
one, or at the load's timeout, every field takes its default, the image is INVALID and SETTINGS_STATE defaulted is
raised. In each case the store operation is NONE, lock and script are as before, and a pass is due where a guard size
changed. LOADING becomes SETUP in the same event: the auto mode is OFF, v 0, the holder none and the hold-over count 0;
a pass is due for it, and the stager is triggered: in STAGING restage-pending is set; in IDLE a staging starts, with
restage-pending set where the geometry changed too, the first of two triggers. A load in SETUP triggers the stager
exactly where the geometry changed (R49, R68, R130, R144, R148, R162, R164, R165). What the memory holds is what the
part wrote, or an image given with the command (log entry 10). That the owners take their values in the order of the
image, so that the geometry comes after the arbiter, is the model's reading (log entry 20). -/
def Obligations.LoadCompletionTakesImage : Prop :=
  ∀ (c : Instr) (instant : Nat) (given : Option (List Word16)) (mem : List Host.Cell) (good : Bool) (v : Settings)
    (s : State), s.msc.loading = true →
    ((c = .loadCompletion instant given ∧ mem = memoryAtLoad s.mem given ∧ good = imageGood (readImage mem)) ∨
      (c = .settingsLoadTimeout instant ∧ mem = s.mem ∧ good = false)) →
    v = (if good then settingsOf (readImage mem) else Settings.defaults) →
    ∃ t, exec c s = .next t ∧ t.settings = v ∧ t.mem = mem ∧ t.scs = s.scs ∧ t.aua.lock = s.aua.lock ∧
      t.msc = { s.msc with
        storeOp := .idle, image := if good then .valid else .invalid,
        mode := if s.msc.mode = .loading then .setup else s.msc.mode } ∧
      (good = false → t.cli.reports .settingsState (.settings .defaulted)) ∧
      t.ede = { s.ede with
        guardAbove := v.guardAbove, guardBelow := v.guardBelow,
        passesDue := s.ede.passesDue +
          (if v.guardAbove = s.ede.guardAbove ∧ v.guardBelow = s.ede.guardBelow then 0 else 1) +
          (if s.msc.mode = .loading then 1 else 0) } ∧
      t.sce = { s.sce with
        accel := v.accel, decel := v.decel, velocity := if s.msc.mode = .loading then 0 else s.sce.velocity } ∧
      t.tbp.autoMode = (if s.msc.mode = .loading then .off else s.tbp.autoMode) ∧
      (s.msc.mode = .loading → t.aua.holder = none ∧ t.aua.inHoldOver = false ∧ t.aua.count = 0 ∧
        t.wst.buffer.isSome = true) ∧
      ∀ w : Stager, w = { s.wst with rows := v.rows, eyeRow := v.eyeRow } → s.aua.holder = none →
        (s.msc.mode = .loading → Restaged { s with wst := w } t ∧
          (s.wst.buffer = none → t.wst.restage = (s.wst.restage || decide (w ≠ s.wst)))) ∧
        (s.msc.mode = .setup → t.aua.holder = none ∧ (w = s.wst → t.wst = s.wst) ∧
          (w ≠ s.wst → Published { s with wst := w } t))

/-- SAVE in SETUP takes a snapshot of the 179 fields, the store operation becomes SAVE and the image INVALID; LOAD makes
the store operation LOAD. A save completion whose words read back as written leaves the snapshot with its correct check
word in the memory, the image VALID; a word that differs, or a timeout, leaves the image INVALID and, once the save has
begun to write, a check word one too great. Every byte past the image is as before, and each raises SETTINGS_STATE with
its outcome (R166, R167). What is read back, and how many words had been written at a timeout, come with the command
(log entry 10); that a timeout before the first write leaves the memory as it was is the model's reading (log entry 29).
-/
def Obligations.SaveStartsAndEnds : Prop :=
  (∀ (tag : Byte) (s : State), s.settled = true → s.consoleReady = true → s.msc.mode = .setup →
    s.msc.storeOp = .idle →
    (∃ t, exec (.save .console tag) s = .next t ∧
      t.msc = { s.msc with storeOp := .save, image := .invalid, snapshot := s.settings.words } ∧
      t.cli = answeredWith s.cli tag .save (.ok []) ∧ SameBut [.msc, .cli] s t) ∧
    (∃ t, exec (.load .console tag) s = .next t ∧ t.msc = { s.msc with storeOp := .load } ∧
      t.cli = answeredWith s.cli tag .load (.ok []) ∧ SameBut [.msc, .cli] s t)) ∧
  ∀ (written : Nat) (s : State), s.memoryOk = true → s.msc.storeOp = .save → s.msc.snapshot.length = 179 →
    (∀ back, back = none ∨ back = some s.msc.snapshot → ∃ t, exec (.saveCompletion back) s = .next t ∧
      readImage t.mem = imageOf s.msc.snapshot ∧ imageGood (readImage t.mem) = true ∧
      (∀ a, 360 ≤ a → memRead t.mem a = memRead s.mem a) ∧
      t.msc = { s.msc with storeOp := .idle, image := .valid, snapshot := [] } ∧
      t.cli = s.cli.tabled (raiseIn s.cli.notices .settingsState (.settings .saved)) ∧
      SameBut [.msc, .mem, .cli, .rli] s t) ∧
    (∀ back, back ≠ s.msc.snapshot → back.length = 179 → ∃ t, exec (.saveCompletion (some back)) s = .next t ∧
      memWord t.mem 179 = checkSum s.msc.snapshot + 1 ∧ (∀ a, 360 ≤ a → memRead t.mem a = memRead s.mem a) ∧
      t.msc = { s.msc with storeOp := .idle, image := .invalid, snapshot := [] } ∧
      t.cli = s.cli.tabled (raiseIn s.cli.notices .settingsState (.settings .saveFailed)) ∧
      SameBut [.msc, .mem, .cli, .rli] s t) ∧
    ∃ t, exec (.saveTimeout written) s = .next t ∧ (written = 0 → t.mem = s.mem) ∧
      (1 ≤ written → memWord t.mem 179 = checkSum s.msc.snapshot + 1) ∧
      (∀ a, 360 ≤ a → memRead t.mem a = memRead s.mem a) ∧
      t.msc = { s.msc with storeOp := .idle, image := .invalid, snapshot := [] } ∧
      t.cli = s.cli.tabled (raiseIn s.cli.notices .settingsState (.settings .saveFailed)) ∧
      SameBut [.msc, .mem, .cli, .rli] s t

/-- MODE executes exactly the six permitted changes when no store operation runs: the mode changes, the player stops and
every port's latches are cleared on entering and leaving DIAGNOSTIC, a pass is due and the stager is triggered; on entry
to SETUP v is 0, the auto mode OFF, the holder none and the hold-over count 0; from SETUP the locked source becomes the
holder, without a lock the choice among candidates; REHEARSAL to ON_AIR and back change neither arbiter nor engine.
Every other change re-evaluates the grant by the grant rule, and the arbiter then agrees with its inputs, its entries,
threshold, lock and hold-over value kept. A change that is not among the six is refused BAD_TRANSITION and leaves the
mode (R49, R68, R87, R161, R162). That the latches are cleared with one report, and the arbiter re-evaluated before the
stager's snapshot, is the model's reading (log entries 12, 28). -/
def Obligations.ModeChanges : Prop :=
  ∀ (tag : Byte) (old m : Mode) (permitted : List (Mode × Mode)) (s : State), s.settled = true →
    s.consoleReady = true → s.msc.storeOp = .idle → old = s.msc.mode → m ≠ old →
    permitted = [(.setup, .rehearsal), (.setup, .diagnostic), (.rehearsal, .setup), (.rehearsal, .onAir),
      (.onAir, .rehearsal), (.diagnostic, .setup)] →
    ((old, m) ∈ permitted → ∃ t, exec (.mode .console tag m.code) s = .next t ∧
      t.msc = { s.msc with mode := m, player := { s.msc.player with
        running := s.msc.player.running && m ≠ .diagnostic && old ≠ .diagnostic } } ∧
      t.ede = { s.ede with passesDue := s.ede.passesDue + 1 } ∧ Restaged s t ∧
      t.cli = linkAfter s.cli (s.tallyNotices t.aua.holder) ⟨tag, Mnem.mode.bytes, .ok (u8 m.code)⟩ ∧
      t.sce = { s.sce with velocity := if m = .setup then 0 else s.sce.velocity } ∧
      t.tbp = { s.tbp with autoMode := if m = .setup then .off else s.tbp.autoMode } ∧
      (∀ n, t.port n = if m = .diagnostic ∨ old = .diagnostic then
          { s.port n with latch := { (s.port n).latch with demand := 0, claim := false }, buttons := Edges.none,
                          playerRecord := Edges.none, driven := false }
        else s.port n) ∧
      (if m = .onAir ∨ old = .onAir then t.aua = s.aua
        else GrantOnly s t ∧ Reevaluated s t ∧ t.authorityOk = true) ∧
      (m = .setup → t.aua = { s.aua with holder := none, inHoldOver := false, count := 0 }) ∧
      (old = .setup → s.aua.holder = none →
        t.aua = { s.aua with holder := s.aua.lock.or (t.best 0), inHoldOver := false, count := 0 }) ∧
      SameBut [.msc, .ede, .ports, .aua, .sce, .tbp, .wst, .cli] s t) ∧
    ((old, m) ∉ permitted → ∃ t, exec (.mode .console tag m.code) s = .next t ∧
      t.cli = answeredWith s.cli tag .mode (.refused .badTransition m.code) ∧
      t.ede = { s.ede with refusal := some ⟨.console, .mode, .badTransition, m.code⟩ } ∧ SameBut [.ede, .cli] s t)

/-- DGLD in SETUP writes its run of entries, each with a deflection up to 4095 and a duration in 1..255, and the length
up to 256; DGRN in DIAGNOSTIC starts the player at entry 0 with every player record released, and stops it with every
latch cleared, the grant re-evaluated by the grant rule where that changes an input of a port's source and else as it
stood. The player's tick fills the entry's port latch with the shaped demand and drives the port, the remaining count
falls by 1 and at 0 the cursor advances, to entry 0 or to finished past the last; a finished cursor stops the player
likewise; one that is not running presents nothing (R86, R87, R168 to R170). One delivered tick is counted as taken (log
entry 4); the latches cleared at a stop are one report (log entry 12). -/
def Obligations.PlayerCommands : Prop :=
  (∀ (tag : Byte) (first length : Nat) (args : List PlayerArg) (es : List PlayerEntry) (loop : Bool) (s : State),
    s.settled = true → s.consoleReady = true →
    (s.msc.mode = .setup → first < 256 → 1 ≤ args.length → args.length ≤ 64 → first + args.length ≤ 256 →
      length < 65536 → args.all (·.wellFormed) = true →
      List.Forall₂ (fun a e => e.port.val = a.port ∧ e.deflection = min a.deflection 4095 ∧ e.buttons = a.buttons ∧
        e.duration = max 1 (min a.duration 255)) args es →
      ∃ t, exec (.dgld .console tag first args length) s = .next t ∧
        t.msc = { s.msc with player := { s.msc.player with
          table := s.msc.player.table.take first ++ es ++ s.msc.player.table.drop (first + es.length),
          length := min length 256 } } ∧
        t.cli = answeredWith s.cli tag .dgld (.ok (u8 first ++ u8 es.length ++ u16 (min length 256))) ∧
        SameBut [.msc, .cli] s t) ∧
    (s.msc.mode = .diagnostic → s.msc.player.length ≠ 0 → s.msc.player.running = false →
      ∃ t, exec (.dgrn .console tag 0 (some loop)) s = .next t ∧
        t.msc = { s.msc with player := { s.msc.player with
          running := true, loop := loop, cursor := some 0,
          remaining := (s.msc.player.table.getD 0 PlayerEntry.reset).duration } } ∧
        t.ports = s.ports.map (fun p => { p with playerRecord := Edges.none }) ∧
        t.cli = answeredWith s.cli tag .dgrn
          (.ok (u8 1 ++ flag loop ++ u16 0 ++ u16 s.msc.player.length)) ∧ SameBut [.msc, .ports, .cli] s t) ∧
    (s.msc.mode = .diagnostic → s.msc.player.running = true →
      ∃ t, exec (.dgrn .console tag 1 none) s = .next t ∧
        t.msc = { s.msc with player := { s.msc.player with running := false } } ∧
        (∀ n, t.port n = { s.port n with
          latch := { (s.port n).latch with demand := 0, claim := false }, buttons := Edges.none,
          playerRecord := Edges.none, driven := false }) ∧ GrantOnly s t ∧ Regranted s t ∧
        ((∀ n, (t.port n).inputs = (s.port n).inputs) → t.aua = s.aua) ∧
        ((∃ n, (t.port n).inputs ≠ (s.port n).inputs) → Reevaluated s t) ∧
        t.cli = linkAfter s.cli (s.tallyNotices t.aua.holder)
          ⟨tag, Mnem.dgrn.bytes, .ok (playerData t.msc.player)⟩ ∧
        SameBut [.msc, .ports, .aua, .wst, .cli] s t)) ∧
  ∀ (c : Nat) (e : PlayerEntry) (p : HandPort) (kind : UnitKind) (next : Option Nat) (due : TickDue) (s : State),
    s.settled = true → e = s.msc.player.table.getD c PlayerEntry.reset → p = s.port e.port →
    kind = p.lastKind.getD .wheel → due = { s.due with player := s.due.player - 1 } →
    next = (if c + 1 = s.msc.player.length then (if s.msc.player.loop then some 0 else none) else some (c + 1)) →
    (∀ q, s.msc.player.running = true → s.msc.player.cursor = some c → q = { p with
        latch := ⟨some e.deflection, shape (s.dsh.get e.port) kind e.deflection, some kind, e.buttons.claim⟩,
        buttons := edgesOr p.buttons (edgesPressed e.buttons.edges p.playerRecord),
        playerRecord := e.buttons.edges, driven := true } →
      ∃ t, exec .playerTick s = .next t ∧ PortTook e.port q s t ∧
        t.cli = s.cli.tabled (portNotices e.port q s t) ∧ t.due = due ∧
        (2 ≤ s.msc.player.remaining → t.msc = { s.msc with player := { s.msc.player with
          remaining := s.msc.player.remaining - 1 } }) ∧
        (s.msc.player.remaining ≤ 1 → t.msc = { s.msc with player := { s.msc.player with
          cursor := next,
          remaining := (next.map fun i => (s.msc.player.table.getD i PlayerEntry.reset).duration).getD 0 } }) ∧
        SameBut [.msc, .ports, .aua, .due, .wst, .cli] s t) ∧
    (s.msc.player.running = true → s.msc.player.cursor = none → ∃ t, exec .playerTick s = .next t ∧
      t.msc = { s.msc with player := { s.msc.player with running := false } } ∧
      (∀ n, t.port n = { s.port n with
        latch := { (s.port n).latch with demand := 0, claim := false }, buttons := Edges.none,
        playerRecord := Edges.none, driven := false }) ∧ GrantOnly s t ∧ Regranted s t ∧
      ((∀ n, (t.port n).inputs = (s.port n).inputs) → t.aua = s.aua) ∧
      ((∃ n, (t.port n).inputs ≠ (s.port n).inputs) → Reevaluated s t) ∧
      t.cli = s.cli.tabled (s.tallyNotices t.aua.holder) ∧ t.due = due ∧
      SameBut [.msc, .ports, .aua, .due, .wst, .cli] s t) ∧
    (s.msc.player.running = false → ∃ t, exec .playerTick s = .next t ∧ t.due = due ∧ SameBut [.due] s t)

/-! ### Chapters 10 and 11: the links and their frames -/

/-- A payload written for a request reads back as that request, for every request whose fields fit: no field is dropped,
and none is taken for another (R183). The layouts R183 does not spell out are the model's choice (log entry 14). -/
def Obligations.RequestPayloadRoundTrip : Prop :=
  ∀ r : Request, r.wellFormed = true → parseRequest r.mnem (requestPayload r) = some r ∧
    mnemOf? r.mnem.bytes = some r.mnem

/-- A frame at a hunting receiver is the start byte A5h, a length, the kind, a tag, a mnemonic, the payload and the
CRC-16 over length through payload. One of kind REQUEST with the check that matches joins the receive queue where it has
room, is answered BUSY where it is full and the response queue has room, and is discarded and counted where both are
full. One whose check does not match, one of any other kind, and one whose length lies outside 6 to 1,026 are discarded
and counted, with no response, and the receiver hunts. The bytes that come before the start byte are dropped and counted
nowhere. More than 20 ms between two bytes discards and counts the frame being assembled, and leaves a hunting receiver
as it is (R171, R172, R183). That a length out of range is judged as soon as it is whole is the model's reading (log
entry 15). -/
def Obligations.FramesReceived : Prop :=
  (∀ (link : Link) (kind tag : Byte) (mnem payload body check : List Byte) (f : RequestFrame) (s : State),
    s.settled = true → (s.link link).receiver = .hunting → mnem.length = 4 → payload.length ≤ 1020 →
    body = u16 (payload.length + 6) ++ [kind, tag] ++ mnem ++ payload → check.length = 2 → f = ⟨tag, mnem, payload⟩ →
    (kind = 0x01 → check = u16 (crc16 body).toNat →
      ((s.link link).receiveQueue.length < 4 →
        ∃ t, exec (.linkFrameReceived link ([0xA5] ++ body ++ check)) s = .next t ∧
          t.link link = { s.link link with receiveQueue := (s.link link).receiveQueue ++ [f] } ∧
          SameBut [linkBlock link] s t) ∧
      (4 ≤ (s.link link).receiveQueue.length → (s.link link).responsePlaces < 8 →
        ∃ t, exec (.linkFrameReceived link ([0xA5] ++ body ++ check)) s = .next t ∧
          t.link link = linkAfter (s.link link) (s.link link).notices ⟨tag, mnem, .busy⟩ ∧
          SameBut [linkBlock link] s t) ∧
      (4 ≤ (s.link link).receiveQueue.length → 8 ≤ (s.link link).responsePlaces →
        ∃ t, exec (.linkFrameReceived link ([0xA5] ++ body ++ check)) s = .next t ∧
          t.link link = { s.link link with errors := min ((s.link link).errors + 1) 65535 } ∧
          SameBut [linkBlock link] s t)) ∧
    (kind ≠ 0x01 ∨ check ≠ u16 (crc16 body).toNat →
      ∃ t, exec (.linkFrameReceived link ([0xA5] ++ body ++ check)) s = .next t ∧
        t.link link = { s.link link with errors := min ((s.link link).errors + 1) 65535 } ∧
        SameBut [linkBlock link] s t)) ∧
  (∀ (link : Link) (length : Nat) (dropped bytes : List Byte) (s : State), s.settled = true →
    (s.link link).receiver = .hunting → (∀ b ∈ dropped, b ≠ 0xA5) →
    (length < 65536 → length < 6 ∨ 1026 < length →
      ∃ t, exec (.linkFrameReceived link ([0xA5] ++ u16 length)) s = .next t ∧
        t.link link = { s.link link with errors := min ((s.link link).errors + 1) 65535 } ∧
        SameBut [linkBlock link] s t) ∧
    exec (.linkFrameReceived link dropped) s = .next s ∧
    exec (.linkFrameReceived link (dropped ++ bytes)) s = exec (.linkFrameReceived link bytes) s) ∧
  ∀ (link : Link) (bytes : List Byte) (s : State), s.settled = true →
    ((s.link link).receiver = .assembling bytes → ∃ t, exec (.interByteTimeout link) s = .next t ∧
      t.link link = { s.link link with
        receiver := .hunting, errors := min ((s.link link).errors + 1) 65535 } ∧ SameBut [linkBlock link] s t) ∧
    ((s.link link).receiver = .hunting → exec (.interByteTimeout link) s = .next s)

/-- Taking a request from the head of the receive queue does what the request's own command does to a state with that
head taken and nothing behind it (R173). That a request command is a frame arriving whole, executed at once on a free
interface, is the model's choice (log entry 6). -/
def Obligations.QueuedRequestIsCommand : Prop :=
  ∀ (c : Instr) (link : Link) (tag : Byte) (r : Request) (instant : Nat) (s : State),
    c.request? = some (link, tag, r) → r.wellFormed = true →
    (s.link link).receiveQueue = [requestFrame tag r] → (s.link link).canExecute = true → instant ≤ s.tbp.now →
    (∀ n i v w, c = .parm link tag n i v w → w ≤ s.tbp.now) →
    ∃ t, exec (.requestExecution link instant) s = .next t ∧
      exec c (s.setLink link { s.link link with receiveQueue := [] }) = .next t

/-- On the rundown link a request outside the permitted set is answered NOT_PERMITTED, and in LOADING every request but
STAT is answered BUSY on either link; nothing else changes (R173, R175). -/
def Obligations.InterfaceAnswersFirst : Prop :=
  ∀ (c : Instr) (link : Link) (tag : Byte) (r : Request) (s : State), s.settled = true →
    c.request? = some (link, tag, r) → (s.link link).free = true → 
    (∀ n i v w, c = .parm link tag n i v w → w ≤ s.tbp.now) →
    (s.msc.mode = .loading → r.mnem ≠ .stat → ∃ t, exec c s = .next t ∧
      t.link link = answeredWith (s.link link) tag r.mnem .busy ∧ SameBut [linkBlock link] s t) ∧
    (s.msc.mode ≠ .loading → link = .rundown →
      r.mnem ∉ [Mnem.eopn, .elin, .eabn, .ecmt, .qcan, .tgts, .rdln, .rdrn, .stat, .nten] →
      ∃ t, exec c s = .next t ∧ t.link link = answeredWith (s.link link) tag r.mnem .notPermitted ∧
        SameBut [linkBlock link] s t)

/-- PARM on the console link writes each parameter clamped into its range and answers the value taken: slew limits,
hold-over value, guard sizes and the constant value change nothing but their own field and what their rule gives. A
reference selection written on enters LOST with REFERENCE_STATE, written off enters FREE; a rate code above 2 is
answered BAD_REQUEST and any other sets the rate; either with the generator's tick at once where its next instant has
passed, and nothing but the response where the value is the one held (R35, R69, R105, R109, R116, R130, R179). That a
tick is overdue only when its instant is strictly past is the model's choice (log entry 3), and so is that a rate
written in LOCKED makes no tick (log entry 27). -/
def Obligations.ParameterWrites : Prop :=
  ∀ (tag : Byte) (v instant : Nat) (s : State), s.settled = true → s.consoleReady = true → v < 4294967296 →
    instant ≤ s.tbp.now →
    (∃ t, exec (.parm .console tag 1 none v instant) s = .next t ∧
      t.sce = { s.sce with accel := max 1 (min v 4096) } ∧
      t.cli = answeredWith s.cli tag .parm (.ok (u32 (max 1 (min v 4096)))) ∧ SameBut [.sce, .cli] s t) ∧
    (∃ t, exec (.parm .console tag 2 none v instant) s = .next t ∧
      t.sce = { s.sce with decel := max 1 (min v 4096) } ∧
      t.cli = answeredWith s.cli tag .parm (.ok (u32 (max 1 (min v 4096)))) ∧ SameBut [.sce, .cli] s t) ∧
    (∃ t, exec (.parm .console tag 3 none v instant) s = .next t ∧
      t.aua = { s.aua with holdOverValue := min v 255 } ∧
      t.cli = answeredWith s.cli tag .parm (.ok (u32 (min v 255))) ∧ SameBut [.aua, .cli] s t) ∧
    (∃ t, exec (.parm .console tag 10 none v instant) s = .next t ∧
      t.tbp = { s.tbp with constant := min v 16384 } ∧
      t.cli = answeredWith s.cli tag .parm (.ok (u32 (min v 16384))) ∧ SameBut [.tbp, .cli] s t) ∧
    (∃ t, exec (.parm .console tag 15 none v instant) s = .next t ∧ t.ede = { s.ede with
        guardAbove := min v 16, passesDue := s.ede.passesDue + (if min v 16 = s.ede.guardAbove then 0 else 1) } ∧
      t.cli = answeredWith s.cli tag .parm (.ok (u32 (min v 16))) ∧ SameBut [.ede, .cli] s t) ∧
    (∃ t, exec (.parm .console tag 16 none v instant) s = .next t ∧ t.ede = { s.ede with
        guardBelow := min v 32, passesDue := s.ede.passesDue + (if min v 32 = s.ede.guardBelow then 0 else 1) } ∧
      t.cli = answeredWith s.cli tag .parm (.ok (u32 (min v 32))) ∧ SameBut [.ede, .cli] s t) ∧
    ((s.tbp.refSelect = true ↔ v ≠ 0) → ∃ t, exec (.parm .console tag 8 none v instant) s = .next t ∧
      t.cli = answeredWith s.cli tag .parm (.ok (u32 (if v = 0 then 0 else 1))) ∧ SameBut [.cli] s t) ∧
    (s.tbp.refSelect = false → v ≠ 0 → ∃ t, exec (.parm .console tag 8 none v instant) s = .next t ∧
      t.tbp = { s.tbp with refSelect := true, state := .lost } ∧
      t.cli = linkAfter s.cli (raiseIn s.cli.notices .referenceState (.reference .lost))
        ⟨tag, Mnem.parm.bytes, .ok (u32 1)⟩ ∧ SameBut [.tbp, .cli] s t) ∧
    (∀ overdue : Bool, s.tbp.refSelect = true → v = 0 →
      overdue = decide (s.tbp.lastTick + s.tbp.rate.period < s.tbp.now) →
      ∃ t, exec (.parm .console tag 8 none v instant) s = .next t ∧
        t.tbp = { s.tbp with
          refSelect := false, state := .free, lastTick := if overdue then s.tbp.now else s.tbp.lastTick } ∧
        t.due = (if overdue then s.deliverTick.due else s.due) ∧
        t.cli = answeredWith s.cli tag .parm (.ok (u32 0)) ∧ SameBut [.tbp, .due, .cli] s t) ∧
    (2 < v ∨ v = s.tbp.rate.code → ∃ t, exec (.parm .console tag 9 none v instant) s = .next t ∧
      t.cli = answeredWith s.cli tag .parm (if 2 < v then .badRequest else .ok (u32 v)) ∧ SameBut [.cli] s t) ∧
    ∀ (r : Rate) (overdue : Bool), v = r.code → r ≠ s.tbp.rate →
      overdue = decide (s.tbp.state ≠ .locked ∧ s.tbp.lastTick + r.period < s.tbp.now) →
      ∃ t, exec (.parm .console tag 9 none v instant) s = .next t ∧
        t.tbp = { s.tbp with rate := r, lastTick := if overdue then s.tbp.now else s.tbp.lastTick } ∧
        t.due = (if overdue then s.deliverTick.due else s.due) ∧
        t.cli = answeredWith s.cli tag .parm (.ok (u32 v)) ∧ SameBut [.tbp, .due, .cli] s t

/-- PARM on the console link outside ON_AIR writes a port's centre, dead-band and reverse flag, each into its own field
of that port's parameters, and in ON_AIR is NOT_PERMITTED. In every mode it writes a port's enable, off making it
DISABLED with latch demand, CLAIM, button latches, record, tracker and silence count cleared, on from DISABLED making it
ABSENT with the assembler in HUNT, either with PORT_STATE and a report to the arbiter; an output's enable, framing and
mirror, with last-sent none where the enable is turned on; the pace limits; and window rows and eye row, each lowered
into its range, a change of either a staging trigger (R80, R82, R91, R116, R144, R152, R179). The order and widths of
two values answered are the model's choice (log entry 13). -/
def Obligations.PortAndOutputParameters : Prop :=
  ∀ (tag : Byte) (v instant : Nat) (n : Fin 4) (o : OutputId) (s : State), s.settled = true →
    s.consoleReady = true → v < 4294967296 → instant ≤ s.tbp.now →
    (s.msc.mode ≠ .onAir →
      (∃ t, exec (.parm .console tag 5 (some n.val) v instant) s = .next t ∧
        t.dsh = s.dsh.set n { s.dsh.get n with centre := min v 4095 } ∧
        t.cli = answeredWith s.cli tag .parm (.ok (u32 (min v 4095))) ∧ SameBut [.dsh, .cli] s t) ∧
      (∃ t, exec (.parm .console tag 6 (some n.val) v instant) s = .next t ∧
        t.dsh = s.dsh.set n { s.dsh.get n with deadband := min v 255 } ∧
        t.cli = answeredWith s.cli tag .parm (.ok (u32 (min v 255))) ∧ SameBut [.dsh, .cli] s t) ∧
      ∃ t, exec (.parm .console tag 7 (some n.val) v instant) s = .next t ∧
        t.dsh = s.dsh.set n { s.dsh.get n with reverse := v ≠ 0 } ∧
        t.cli = answeredWith s.cli tag .parm (.ok (u32 (if v = 0 then 0 else 1))) ∧ SameBut [.dsh, .cli] s t) ∧
    (∀ name ∈ [5, 6, 7], s.msc.mode = .onAir → ∃ t, exec (.parm .console tag name (some n.val) v instant) s = .next t ∧
      t.cli = answeredWith s.cli tag .parm .notPermitted ∧ SameBut [.cli] s t) ∧
    (∀ p q : HandPort, p = s.port n →
      ((((p.state = .disabled ∧ v = 0) ∨ (p.state ≠ .disabled ∧ v ≠ 0)) ∧ q = p) ∨
        (p.state ≠ .disabled ∧ v = 0 ∧ q = { p with
          state := .disabled, latch := { p.latch with demand := 0, claim := false }, buttons := Edges.none,
          record := none, expected := none, silence := 0 }) ∨
        (p.state = .disabled ∧ v ≠ 0 ∧ q = { p with
          state := .absent, assembler := .hunt, badRun := 0, silence := 0, expected := none })) →
      ∃ t, exec (.parm .console tag 4 (some n.val) v instant) s = .next t ∧ PortTook n q s t ∧
        t.cli = linkAfter s.cli (portNotices n q s t) ⟨tag, Mnem.parm.bytes, .ok (u32 (if v = 0 then 0 else 1))⟩ ∧
        SameBut [.ports, .aua, .wst, .cli] s t) ∧
    (∃ t, exec (.parm .console tag 17 (some o.code) v instant) s = .next t ∧
      t.out o = { s.out o with config := { (s.out o).config with enable := v ≠ 0 },
                               lastSent := if v ≠ 0 ∧ (s.out o).config.enable = false then none
                                 else (s.out o).lastSent } ∧
      t.cli = answeredWith s.cli tag .parm (.ok (u32 (if v = 0 then 0 else 1))) ∧
      SameBut [outBlock o, .cli] s t) ∧
    (v ≤ 1 → ∃ t, exec (.parm .console tag 18 (some o.code) v instant) s = .next t ∧
      t.out o = { s.out o with config := { (s.out o).config with framing := if v = 0 then .master else .slave } } ∧
      t.cli = answeredWith s.cli tag .parm (.ok (u32 v)) ∧ SameBut [outBlock o, .cli] s t) ∧
    (∃ t, exec (.parm .console tag 19 (some o.code) v instant) s = .next t ∧
      t.out o = { s.out o with config := { (s.out o).config with mirror := v ≠ 0 } } ∧
      t.cli = answeredWith s.cli tag .parm (.ok (u32 (if v = 0 then 0 else 1))) ∧
      SameBut [outBlock o, .cli] s t) ∧
    (∃ t, exec (.parm .console tag 11 none v instant) s = .next t ∧
      t.tbp = { s.tbp with paceMin := min v 16384, paceMax := max s.tbp.paceMax (min v 16384) } ∧
      t.cli = answeredWith s.cli tag .parm (.ok (if s.tbp.paceMax < min v 16384 then
        u32 (min v 16384) ++ u32 (min v 16384) else u32 (min v 16384))) ∧ SameBut [.tbp, .cli] s t) ∧
    (∃ t, exec (.parm .console tag 12 none v instant) s = .next t ∧
      t.tbp = { s.tbp with paceMax := max s.tbp.paceMin (min v 16384) } ∧
      t.cli = answeredWith s.cli tag .parm (.ok (u32 (max s.tbp.paceMin (min v 16384)))) ∧
      SameBut [.tbp, .cli] s t) ∧
    ∀ (name rows eyeRow : Nat),
      ((name = 13 ∧ rows = max 1 (min v 24) ∧ eyeRow = min s.wst.eyeRow (rows - 1)) ∨
        (name = 14 ∧ rows = s.wst.rows ∧ eyeRow = min v (rows - 1))) →
      ∃ t, exec (.parm .console tag name none v instant) s = .next t ∧
        (rows = s.wst.rows ∧ eyeRow = s.wst.eyeRow → t.wst = s.wst) ∧
        (¬(rows = s.wst.rows ∧ eyeRow = s.wst.eyeRow) →
          Published { s with wst := { s.wst with rows := rows, eyeRow := eyeRow } } t) ∧
        t.cli = answeredWith s.cli tag .parm (.ok (u32 rows ++ u32 eyeRow)) ∧ SameBut [.wst, .cli] s t

/-- STAT, PGET, RFSL and CRVR change nothing but the link that is answered; STAT answers OK on both links in every mode
with the state its selector names, field by field: the part, a port, an output with the stager, the commit queue and
edit slots, the timebase. PGET answers the value of each of the 22 parameters by its name and index, RFSL the refusal
record (R88, R101, R118, R140, R141, R158, R179, R180). The layouts of STAT and RFSL that R183 does not spell out are
the model's choice (log entry 13). -/
def Obligations.ReadsReportState : Prop :=
  (∀ (c : Instr) (link : Link) (tag : Byte) (r : Request) (s : State), s.settled = true →
    c.request? = some (link, tag, r) → (s.link link).free = true →
    r.mnem = .stat ∨ r.mnem = .pget ∨ r.mnem = .rfsl ∨ r.mnem = .crvr →
    ∃ t st, exec c s = .next t ∧ t.link link = answeredWith (s.link link) tag r.mnem st ∧
      SameBut [linkBlock link] s t) ∧
  (∀ (link : Link) (tag : Byte) (n : Fin 4) (o : OutputId) (l : LinkIface) (p : HandPort) (x : Output) (s : State),
    s.settled = true → l = s.link link → l.free = true → p = s.port n → x = s.out o →
    (∃ t, exec (.stat link tag 0 none) s = .next t ∧ t.link link = answeredWith l tag .stat (.ok
      (u8 s.msc.mode.code ++ u8 s.msc.image.code ++ u8 s.msc.storeOp.code ++
        u16 (16384 - s.scs.pool.length) ++ u16 (s.scs.pool.countP (·.story.isNone)) ++
        u16 (s.scs.pool.countP (·.story.isSome)) ++ u16 s.scs.rundown.length ++ u16 s.scs.order.length ++
        opt u24 s.sce.anchor ++ opt u16 (s.sce.anchor.bind s.scs.ordinal?) ++ u16 s.sce.fraction ++
        opt u32 ((s.sce.anchor.bind s.scs.ordinal?).map fun k => k * 4096 + s.sce.fraction) ++ i16 s.sce.velocity ++
        u8 s.sce.state.code ++ opt (fun j : JumpTarget => u8 j.code ++ u24 j.param) s.sce.pendingJump ++
        i16 s.sce.manualSpeed ++ opt u16 s.sce.currentStory ++ u8 ((s.aua.holder.map Source.number).getD 255) ++
        u8 ((s.aua.lock.map Source.number).getD 255) ++ u8 s.aua.count ++ flag s.msc.player.running ++
        flag s.msc.player.loop ++ u16 (s.msc.player.cursor.getD 65535) ++ u8 s.msc.player.remaining ++
        u16 s.msc.player.length ++ u8 l.receiveQueue.length ++ u8 l.responseQueue.length ++ u16 l.errors))) ∧
    (∃ t, exec (.stat link tag 1 (some n.val)) s = .next t ∧ t.link link = answeredWith l tag .stat (.ok
      (flag (p.state ≠ .disabled) ++ u8 p.state.code ++ u8 p.assembler.code ++ u16 p.counters.valid ++
        u16 p.counters.parity ++ u16 p.counters.framing ++ u16 p.counters.length ++ u16 p.counters.kind ++
        u16 p.counters.aborted ++ u16 p.counters.missed ++ u8 p.badRun ++ u8 p.silence ++ opt u8 p.expected ++
        opt (fun k : UnitKind => u8 k.code) p.lastKind ++ opt u16 p.latch.deflection ++ i16 p.latch.demand ++
        opt (fun k : UnitKind => u8 k.code) p.latch.kind ++ flag p.latch.claim ++
        u8 (p.buttons.holdToggle.toNat + 2 * p.buttons.go.toNat + 4 * p.buttons.next.toNat + 8 * p.buttons.prev.toNat) ++
        flag p.driven))) ∧
    (∃ t, exec (.stat link tag 2 (some o.code)) s = .next t ∧ t.link link = answeredWith l tag .stat (.ok
      (flag x.config.enable ++ u8 x.config.framing.code ++ flag x.config.mirror ++ u8 x.sending.isSome.toNat ++
        opt u32 x.lastSent ++ u16 x.packetCounter ++ u16 x.underrun ++ u16 x.late ++ u16 x.collision ++
        u8 s.wst.buffer.isSome.toNat ++ flag s.wst.restage ++ u32 s.wst.sequence ++ u8 s.wst.rows ++
        u8 s.wst.eyeRow))) ∧
    (∀ (written : Page → List Byte) (slot : EditSlot → List Byte),
      (∀ page, (written page).length = 8 ∧ ∀ k, k < 64 →
        ((written page).getD (k / 8) 0).getLsbD (k % 8) = (page.getD k none).isSome) →
      (slot .closed = [0, 0, 0, 0] ∧ ∀ (e : EditParams) (k : Nat) (page : Page),
        slot (.opened e k page) = [1, 1] ++ u8 e.code ++ [1] ++ u16 k ++ [1] ++ written page ∧
        slot (.copying e k page) = [2, 1] ++ u8 e.code ++ [1] ++ u16 k ++ [1] ++ written page) →
      ∃ t, exec (.stat link tag 3 none) s = .next t ∧ t.link link = answeredWith l tag .stat (.ok
        (listOf (fun e : Entry => u8 e.link.code ++ [e.tag] ++ editBytes e.edit ++ u8 e.state.code ++
            opt u24 e.lids.head? ++ u8 e.lids.length ++ flag e.cancelMarked ++ flag e.deferredSent) s.ede.queue ++
          slot s.ede.consoleSlot ++ slot s.ede.rundownSlot ++ u8 s.ede.guardAbove ++ u8 s.ede.guardBelow))) ∧
    (∃ t, exec (.stat link tag 4 none) s = .next t ∧ t.link link = answeredWith l tag .stat (.ok
      (flag s.tbp.refSelect ++ u8 s.tbp.rate.code ++ u8 s.tbp.state.code ++ u16 s.tbp.glitches ++ u32 s.tbp.clock ++
        flag s.tbp.running ++ [(0 : Fin 4), 1, 2, 3].flatMap (fun k =>
          u32 (s.tbp.timers.get k).compare ++ flag (s.tbp.timers.get k).armed) ++
        u8 s.tbp.autoMode.code ++ u16 s.tbp.constant ++ u16 s.tbp.paceMin ++ u16 s.tbp.paceMax))) ∧
    (link = .console → s.msc.mode ≠ .loading →
      ∃ t, exec (.rfsl link tag) s = .next t ∧
        t.link link = answeredWith (s.link link) tag .rfsl (.ok (opt refusalBytes s.ede.refusal)))) ∧
  ∀ (tag : Byte) (n : Fin 4) (o : OutputId) (src : Source) (k : Nat) (e : LockEntry) (s : State), s.settled = true →
    s.consoleReady = true → s.ede.locks[k]? = some e → k < 8 →
    ∀ x ∈ [((1 : Nat), (none : Option Nat), u32 s.sce.accel), (2, none, u32 s.sce.decel),
        (3, none, u32 s.aua.holdOverValue),
        (4, some n.val, u32 (if (s.port n).state = .disabled then 0 else 1)),
        (5, some n.val, u32 (s.dsh.get n).centre), (6, some n.val, u32 (s.dsh.get n).deadband),
        (7, some n.val, u32 (s.dsh.get n).reverse.toNat), (8, none, u32 s.tbp.refSelect.toNat),
        (9, none, u32 s.tbp.rate.code), (10, none, u32 s.tbp.constant), (11, none, u32 s.tbp.paceMin),
        (12, none, u32 s.tbp.paceMax), (13, none, u32 s.wst.rows), (14, none, u32 s.wst.eyeRow),
        (15, none, u32 s.ede.guardAbove), (16, none, u32 s.ede.guardBelow),
        (17, some o.code, u32 (s.out o).config.enable.toNat), (18, some o.code, u32 (s.out o).config.framing.code),
        (19, some o.code, u32 (s.out o).config.mirror.toNat),
        (20, some src.number, flag (s.aua.entry src).enable ++ u8 (s.aua.entry src).priority),
        (21, none, u32 s.aua.threshold),
        (22, some k, u16 e.low ++ u16 e.high ++ flag e.console ++ flag e.rundown ++ flag e.sticky ++ flag e.inUse)],
      ∃ t, exec (.pget .console tag x.1 x.2.1) s = .next t ∧
        t.cli = answeredWith s.cli tag .pget (.ok x.2.2) ∧ SameBut [.cli] s t

/-- A raise sets its kind's entry pending, adds one to its count up to 255 and replaces its detail, and leaves every
other entry. NTEN writes every enable it lists, of kinds the link's own table holds, the later of two pairs for one
kind, keeps pending flags, counts and details, and answers every enable of the table (R176, R178). That the enables
answered carry no count byte is the model's choice (log entry 13). -/
def Obligations.NoticeTables : Prop :=
  (∀ (table : List NoticeEntry) (k : NoticeKind) (d : NoticeDetail), raiseIn table k d = table.map fun e =>
    if e.kind = k then { e with pending := true, count := min (e.count + 1) 255, detail := some d } else e) ∧
  ∀ (link : Link) (tag : Byte) (pairs : List (Nat × Bool)) (s : State), s.settled = true →
    s.linkReady link = true → 1 ≤ pairs.length → pairs.length ≤ 14 →
    (∀ p ∈ pairs, p.1 < 256 ∧ ∃ e ∈ (s.link link).notices, e.kind.number = p.1) →
    ∃ t table, exec (.nten link tag pairs) s = .next t ∧
      table = (s.link link).notices.map (fun e =>
        { e with enabled := ((pairs.reverse.find? (fun p => p.1 = e.kind.number)).map (·.2)).getD e.enabled }) ∧
      t.link link = linkAfter (s.link link) table
        ⟨tag, Mnem.nten.bytes, .ok (table.flatMap fun e => flag e.enabled)⟩ ∧
      SameBut [linkBlock link] s t

/-- The outgoing line: at a send completion the response at the head of the queue is sent, else the pending enabled
entry of the table that comes first, whose pending flag and count are cleared with its detail kept, else the line is
idle; nothing else of the link changes. LINK_SEND_START starts the same send on an idle line; where every send has
started, as after every step, it changes nothing. A response goes out with its request's tag and mnemonic, its status
byte, and the data of an OK or the cause code and four-byte detail of a REFUSED. A notice goes out with tag 0, NTCE, its
kind number, its count and its four detail bytes. A frame passes as A5h, length, kind, tag, mnemonic, payload and the
CRC-16 over length through payload (R174, R176, R177, R183). That a send starts within the event that gives cause for it
is the model's choice (log entry 7). -/
def Obligations.OutgoingLine : Prop :=
  (∀ (link : Link) (s : State), s.settled = true →
    (∀ r rest f, (s.link link).line = some f → (s.link link).responseQueue = r :: rest →
      ∃ t, exec (.linkSendCompletion link) s = .next t ∧
        t.link link = { s.link link with line := some r.frame, responseQueue := rest } ∧
        SameBut [linkBlock link] s t) ∧
    (∀ e, (s.link link).responseQueue = [] →
      (s.link link).notices.find? (fun x => x.pending && x.enabled) = some e →
      ∃ t, exec (.linkSendCompletion link) s = .next t ∧
        t.link link = { s.link link with
          line := some e.frame
          notices := (s.link link).notices.map
            (fun x => if x.kind = e.kind then { x with pending := false, count := 0 } else x) } ∧
        SameBut [linkBlock link] s t) ∧
    ((s.link link).responseQueue = [] → (∀ x ∈ (s.link link).notices, x.pending = false ∨ x.enabled = false) →
      ∃ t, exec (.linkSendCompletion link) s = .next t ∧ t.link link = { s.link link with line := none } ∧
        SameBut [linkBlock link] s t)) ∧
  (∀ (link : Link) (s : State),
    (∀ r rest, (s.link link).line = none → (s.link link).responseQueue = r :: rest →
      ∃ t, exec (.linkSendStart link) s = .next t ∧
        t.link link = { s.link link with line := some r.frame, responseQueue := rest } ∧
        SameBut [.cli, .rli] s t) ∧
    (∀ e, (s.link link).line = none → (s.link link).responseQueue = [] →
      (s.link link).notices.find? (fun x => x.pending && x.enabled) = some e →
      ∃ t, exec (.linkSendStart link) s = .next t ∧
        t.link link = { s.link link with
          line := some e.frame
          notices := (s.link link).notices.map
            (fun x => if x.kind = e.kind then { x with pending := false, count := 0 } else x) } ∧
        SameBut [.cli, .rli] s t) ∧
    (s.settled = true → exec (.linkSendStart link) s = .next s)) ∧
  (∀ (r : Response) (causes : List Cause),
    r.frame = ⟨.response, r.tag, r.mnem, match r.status with
      | .ok data => [0] ++ data
      | .busy => [1]
      | .notPermitted => [2]
      | .badRequest => [3]
      | .refused cause detail => [4] ++ u8 cause.code ++ u32 detail⟩ ∧
    (causes = [.noEdit, .incomplete, .queueFull, .duplicateTag, .unknownStory, .storyExists, .badSpan, .locked,
        .storyFull, .rundownFull, .poolFull, .idsExhausted, .cancelled, .unknownEntry, .order, .sticky, .unknownLine,
        .unknownTarget, .noSample, .badTransition, .emptyTable] →
      causes.map Cause.code = [1, 2, 3, 4, 5, 6, 7, 8, 9, 10, 11, 12, 13, 14, 15, 16, 17, 18, 19, 20, 21])) ∧
  (∀ e : NoticeEntry, e.frame = ⟨.notice, 0, [0x4E, 0x54, 0x43, 0x45], u8 e.kind.number ++ u8 e.count ++
      match e.detail with
      | none => [0, 0, 0, 0]
      | some (.value n) => u32 n
      | some (.holder h) => u8 ((h.map Source.number).getD 255) ++ [0, 0, 0]
      | some (.commit link tag cause) => u8 link.code ++ [tag] ++ u8 ((cause.map Cause.code).getD 0) ++ [0]
      | some (.port n state) => u8 n.val ++ u8 state.code ++ [0, 0]
      | some (.reference state) => [0, 0, 0] ++ u8 state.code
      | some (.output o) => [0, 0, 0] ++ u8 o.code
      | some (.jump target) => u8 target.code ++ u24 target.param
      | some (.settings x) => [0, 0, 0, match x with | .defaulted => 1 | .saved => 2 | .saveFailed => 3]⟩) ∧
  ∀ (f : LinkFrame) (body : List Byte),
    body = u16 (f.payload.length + 6) ++ [match f.kind with | .request => 1 | .response => 2 | .notice => 3, f.tag] ++
      f.mnem ++ f.payload →
    f.bytes = [0xA5] ++ body ++ u16 (crc16 body).toNat
end

