-- ==== Sys2Proof/Laws/State.lean ====
section
/-! SUPPORT. The lemmas of State's named updates: for every update, one lemma for each block it leaves as it was and for each
block it changes, and the lemmas of the numbered blocks. -/

namespace Sys2Proof

/-! ### Four like things -/

@[simp] theorem Four.get_set_same {α : Type} (f : Four α) (n : Fin 4) (a : α) : (f.set n a).get n = a := by
  fin_cases n <;> rfl

theorem Four.get_set_other {α : Type} (f : Four α) {m n : Fin 4} (a : α) (h : m ≠ n) : (f.set n a).get m = f.get m := by
  fin_cases m <;> fin_cases n <;> first | rfl | exact absurd rfl h

theorem Four.get_set {α : Type} (f : Four α) (m n : Fin 4) (a : α) :
    (f.set n a).get m = if m = n then a else f.get m := by
  split
  · next h => rw [h, Four.get_set_same]
  · next h => exact Four.get_set_other f a h

@[simp] theorem Four.get_map {α β : Type} (g : α → β) (f : Four α) (n : Fin 4) : (f.map g).get n = g (f.get n) := by
  fin_cases n <;> rfl

@[simp] theorem Four.get_same {α : Type} (a : α) (n : Fin 4) : (Four.same a).get n = a := by
  fin_cases n <;> rfl

theorem Four.ext_get {α : Type} {f g : Four α} (h : ∀ n, f.get n = g.get n) : f = g := by
  cases f; cases g
  have h0 := h 0; have h1 := h 1; have h2 := h 2; have h3 := h 3
  simp only [Four.get] at h0 h1 h2 h3
  subst h0 h1 h2 h3; rfl

@[simp] theorem Four.set_get {α : Type} (f : Four α) (n : Fin 4) : f.set n (f.get n) = f := by
  apply Four.ext_get
  intro m
  rw [Four.get_set]
  split
  · next h => rw [h]
  · rfl

theorem Four.all_toList {α : Type} (f : Four α) (p : α → Bool) : f.toList.all p = true ↔ ∀ n, p (f.get n) = true := by
  constructor
  · intro h n
    simp only [Four.toList, List.all_cons, List.all_nil, Bool.and_true, Bool.and_eq_true] at h
    fin_cases n
    exacts [h.1, h.2.1, h.2.2.1, h.2.2.2]
  · intro h
    simp [Four.toList, show p f.p0 = true from h 0, show p f.p1 = true from h 1, show p f.p2 = true from h 2,
      show p f.p3 = true from h 3]

end Sys2Proof

namespace Sys2Proof.Machine

/-! ### Numbered blocks -/

@[simp] theorem State.setPort_port_same (s : State) (n : Fin 4) (p : HandPort) : (s.setPort n p).port n = p :=
  Four.get_set_same _ _ _

theorem State.setPort_port (s : State) (m n : Fin 4) (p : HandPort) :
    (s.setPort n p).port m = if m = n then p else s.port m :=
  Four.get_set _ _ _ _

@[simp] theorem State.setLink_link_same (s : State) (l : Link) (i : LinkIface) : (s.setLink l i).link l = i := by
  cases l <;> rfl

theorem State.setLink_link (s : State) (l m : Link) (i : LinkIface) :
    (s.setLink l i).link m = if m = l then i else s.link m := by
  cases l <;> cases m <;> rfl

@[simp] theorem State.setLink_self (s : State) (l : Link) : s.setLink l (s.link l) = s := by
  cases l <;> rfl

@[simp] theorem State.setLink_setLink (s : State) (l : Link) (i j : LinkIface) :
    (s.setLink l i).setLink l j = s.setLink l j := by
  cases l <;> rfl

@[simp] theorem State.setOut_out_same (s : State) (o : OutputId) (x : Output) : (s.setOut o x).out o = x := by
  cases o <;> rfl

theorem State.setOut_out (s : State) (o p : OutputId) (x : Output) :
    (s.setOut o x).out p = if p = o then x else s.out p := by
  cases o <;> cases p <;> rfl

@[simp] theorem State.setSlot_slot_same (s : State) (l : Link) (x : EditSlot) : (s.setSlot l x).slot l = x := by
  cases l <;> rfl

theorem State.setSlot_slot (s : State) (l m : Link) (x : EditSlot) :
    (s.setSlot l x).slot m = if m = l then x else s.slot m := by
  cases l <;> cases m <;> rfl

@[simp] theorem State.setSlot_queue (s : State) (l : Link) (x : EditSlot) : (s.setSlot l x).ede.queue = s.ede.queue := by
  cases l <;> rfl

@[simp] theorem State.setSlot_passesDue (s : State) (l : Link) (x : EditSlot) :
    (s.setSlot l x).ede.passesDue = s.ede.passesDue := by
  cases l <;> rfl

@[simp] theorem State.setSlot_locks (s : State) (l : Link) (x : EditSlot) : (s.setSlot l x).ede.locks = s.ede.locks := by
  cases l <;> rfl

@[simp] theorem State.setSlot_refusal (s : State) (l : Link) (x : EditSlot) :
    (s.setSlot l x).ede.refusal = s.ede.refusal := by
  cases l <;> rfl

@[simp] theorem State.setSlot_guardAbove (s : State) (l : Link) (x : EditSlot) :
    (s.setSlot l x).ede.guardAbove = s.ede.guardAbove := by
  cases l <;> rfl

@[simp] theorem State.setSlot_guardBelow (s : State) (l : Link) (x : EditSlot) :
    (s.setSlot l x).ede.guardBelow = s.ede.guardBelow := by
  cases l <;> rfl

/-! ### One lemma for each block of each update -/

/-! #### setPort -/

@[simp] theorem State.setPort_msc (s : State) (n : Fin 4) (p : HandPort) : (s.setPort n p).msc = s.msc := rfl
@[simp] theorem State.setPort_scs (s : State) (n : Fin 4) (p : HandPort) : (s.setPort n p).scs = s.scs := rfl
@[simp] theorem State.setPort_ede (s : State) (n : Fin 4) (p : HandPort) : (s.setPort n p).ede = s.ede := rfl
@[simp] theorem State.setPort_ports (s : State) (n : Fin 4) (p : HandPort) :
    (s.setPort n p).ports = s.ports.set n p := rfl
@[simp] theorem State.setPort_dsh (s : State) (n : Fin 4) (p : HandPort) : (s.setPort n p).dsh = s.dsh := rfl
@[simp] theorem State.setPort_aua (s : State) (n : Fin 4) (p : HandPort) : (s.setPort n p).aua = s.aua := rfl
@[simp] theorem State.setPort_sce (s : State) (n : Fin 4) (p : HandPort) : (s.setPort n p).sce = s.sce := rfl
@[simp] theorem State.setPort_tbp (s : State) (n : Fin 4) (p : HandPort) : (s.setPort n p).tbp = s.tbp := rfl
@[simp] theorem State.setPort_wst (s : State) (n : Fin 4) (p : HandPort) : (s.setPort n p).wst = s.wst := rfl
@[simp] theorem State.setPort_loa (s : State) (n : Fin 4) (p : HandPort) : (s.setPort n p).loa = s.loa := rfl
@[simp] theorem State.setPort_lob (s : State) (n : Fin 4) (p : HandPort) : (s.setPort n p).lob = s.lob := rfl
@[simp] theorem State.setPort_cli (s : State) (n : Fin 4) (p : HandPort) : (s.setPort n p).cli = s.cli := rfl
@[simp] theorem State.setPort_rli (s : State) (n : Fin 4) (p : HandPort) : (s.setPort n p).rli = s.rli := rfl
@[simp] theorem State.setPort_due (s : State) (n : Fin 4) (p : HandPort) : (s.setPort n p).due = s.due := rfl
@[simp] theorem State.setPort_mem (s : State) (n : Fin 4) (p : HandPort) : (s.setPort n p).mem = s.mem := rfl
@[simp] theorem State.setPort_pending (s : State) (n : Fin 4) (p : HandPort) :
    (s.setPort n p).pending = s.pending := rfl

/-! #### setQueue -/

@[simp] theorem State.setQueue_msc (s : State) (q : List Entry) : (s.setQueue q).msc = s.msc := rfl
@[simp] theorem State.setQueue_scs (s : State) (q : List Entry) : (s.setQueue q).scs = s.scs := rfl
@[simp] theorem State.setQueue_ede (s : State) (q : List Entry) : (s.setQueue q).ede = { s.ede with queue := q } := rfl
@[simp] theorem State.setQueue_ports (s : State) (q : List Entry) : (s.setQueue q).ports = s.ports := rfl
@[simp] theorem State.setQueue_dsh (s : State) (q : List Entry) : (s.setQueue q).dsh = s.dsh := rfl
@[simp] theorem State.setQueue_aua (s : State) (q : List Entry) : (s.setQueue q).aua = s.aua := rfl
@[simp] theorem State.setQueue_sce (s : State) (q : List Entry) : (s.setQueue q).sce = s.sce := rfl
@[simp] theorem State.setQueue_tbp (s : State) (q : List Entry) : (s.setQueue q).tbp = s.tbp := rfl
@[simp] theorem State.setQueue_wst (s : State) (q : List Entry) : (s.setQueue q).wst = s.wst := rfl
@[simp] theorem State.setQueue_loa (s : State) (q : List Entry) : (s.setQueue q).loa = s.loa := rfl
@[simp] theorem State.setQueue_lob (s : State) (q : List Entry) : (s.setQueue q).lob = s.lob := rfl
@[simp] theorem State.setQueue_cli (s : State) (q : List Entry) : (s.setQueue q).cli = s.cli := rfl
@[simp] theorem State.setQueue_rli (s : State) (q : List Entry) : (s.setQueue q).rli = s.rli := rfl
@[simp] theorem State.setQueue_due (s : State) (q : List Entry) : (s.setQueue q).due = s.due := rfl
@[simp] theorem State.setQueue_mem (s : State) (q : List Entry) : (s.setQueue q).mem = s.mem := rfl
@[simp] theorem State.setQueue_pending (s : State) (q : List Entry) : (s.setQueue q).pending = s.pending := rfl

/-! #### raise -/

@[simp] theorem State.raise_msc (s : State) (k : NoticeKind) (d : NoticeDetail) : (s.raise k d).msc = s.msc := rfl
@[simp] theorem State.raise_scs (s : State) (k : NoticeKind) (d : NoticeDetail) : (s.raise k d).scs = s.scs := rfl
@[simp] theorem State.raise_ede (s : State) (k : NoticeKind) (d : NoticeDetail) : (s.raise k d).ede = s.ede := rfl
@[simp] theorem State.raise_ports (s : State) (k : NoticeKind) (d : NoticeDetail) : (s.raise k d).ports = s.ports := rfl
@[simp] theorem State.raise_dsh (s : State) (k : NoticeKind) (d : NoticeDetail) : (s.raise k d).dsh = s.dsh := rfl
@[simp] theorem State.raise_aua (s : State) (k : NoticeKind) (d : NoticeDetail) : (s.raise k d).aua = s.aua := rfl
@[simp] theorem State.raise_sce (s : State) (k : NoticeKind) (d : NoticeDetail) : (s.raise k d).sce = s.sce := rfl
@[simp] theorem State.raise_tbp (s : State) (k : NoticeKind) (d : NoticeDetail) : (s.raise k d).tbp = s.tbp := rfl
@[simp] theorem State.raise_wst (s : State) (k : NoticeKind) (d : NoticeDetail) : (s.raise k d).wst = s.wst := rfl
@[simp] theorem State.raise_loa (s : State) (k : NoticeKind) (d : NoticeDetail) : (s.raise k d).loa = s.loa := rfl
@[simp] theorem State.raise_lob (s : State) (k : NoticeKind) (d : NoticeDetail) : (s.raise k d).lob = s.lob := rfl
@[simp] theorem State.raise_cli (s : State) (k : NoticeKind) (d : NoticeDetail) :
    (s.raise k d).cli = { s.cli with notices := raiseIn s.cli.notices k d } := rfl
@[simp] theorem State.raise_rli (s : State) (k : NoticeKind) (d : NoticeDetail) : (s.raise k d).rli = s.rli := rfl
@[simp] theorem State.raise_due (s : State) (k : NoticeKind) (d : NoticeDetail) : (s.raise k d).due = s.due := rfl
@[simp] theorem State.raise_mem (s : State) (k : NoticeKind) (d : NoticeDetail) : (s.raise k d).mem = s.mem := rfl
@[simp] theorem State.raise_pending (s : State) (k : NoticeKind) (d : NoticeDetail) :
    (s.raise k d).pending = s.pending := rfl

/-! #### recordRefusal -/

@[simp] theorem State.recordRefusal_msc (s : State) (l : Link) (m : Mnem) (c : Cause) (d : Nat) :
    (s.recordRefusal l m c d).msc = s.msc := rfl
@[simp] theorem State.recordRefusal_scs (s : State) (l : Link) (m : Mnem) (c : Cause) (d : Nat) :
    (s.recordRefusal l m c d).scs = s.scs := rfl
@[simp] theorem State.recordRefusal_ede (s : State) (l : Link) (m : Mnem) (c : Cause) (d : Nat) :
    (s.recordRefusal l m c d).ede = { s.ede with refusal := some ⟨l, m, c, d⟩ } := rfl
@[simp] theorem State.recordRefusal_ports (s : State) (l : Link) (m : Mnem) (c : Cause) (d : Nat) :
    (s.recordRefusal l m c d).ports = s.ports := rfl
@[simp] theorem State.recordRefusal_dsh (s : State) (l : Link) (m : Mnem) (c : Cause) (d : Nat) :
    (s.recordRefusal l m c d).dsh = s.dsh := rfl
@[simp] theorem State.recordRefusal_aua (s : State) (l : Link) (m : Mnem) (c : Cause) (d : Nat) :
    (s.recordRefusal l m c d).aua = s.aua := rfl
@[simp] theorem State.recordRefusal_sce (s : State) (l : Link) (m : Mnem) (c : Cause) (d : Nat) :
    (s.recordRefusal l m c d).sce = s.sce := rfl
@[simp] theorem State.recordRefusal_tbp (s : State) (l : Link) (m : Mnem) (c : Cause) (d : Nat) :
    (s.recordRefusal l m c d).tbp = s.tbp := rfl
@[simp] theorem State.recordRefusal_wst (s : State) (l : Link) (m : Mnem) (c : Cause) (d : Nat) :
    (s.recordRefusal l m c d).wst = s.wst := rfl
@[simp] theorem State.recordRefusal_loa (s : State) (l : Link) (m : Mnem) (c : Cause) (d : Nat) :
    (s.recordRefusal l m c d).loa = s.loa := rfl
@[simp] theorem State.recordRefusal_lob (s : State) (l : Link) (m : Mnem) (c : Cause) (d : Nat) :
    (s.recordRefusal l m c d).lob = s.lob := rfl
@[simp] theorem State.recordRefusal_cli (s : State) (l : Link) (m : Mnem) (c : Cause) (d : Nat) :
    (s.recordRefusal l m c d).cli = s.cli := rfl
@[simp] theorem State.recordRefusal_rli (s : State) (l : Link) (m : Mnem) (c : Cause) (d : Nat) :
    (s.recordRefusal l m c d).rli = s.rli := rfl
@[simp] theorem State.recordRefusal_due (s : State) (l : Link) (m : Mnem) (c : Cause) (d : Nat) :
    (s.recordRefusal l m c d).due = s.due := rfl
@[simp] theorem State.recordRefusal_mem (s : State) (l : Link) (m : Mnem) (c : Cause) (d : Nat) :
    (s.recordRefusal l m c d).mem = s.mem := rfl
@[simp] theorem State.recordRefusal_pending (s : State) (l : Link) (m : Mnem) (c : Cause) (d : Nat) :
    (s.recordRefusal l m c d).pending = s.pending := rfl

/-! #### passFollows -/

@[simp] theorem State.passFollows_msc (s : State) : s.passFollows.msc = s.msc := rfl
@[simp] theorem State.passFollows_scs (s : State) : s.passFollows.scs = s.scs := rfl
@[simp] theorem State.passFollows_ede (s : State) :
    s.passFollows.ede = { s.ede with passesDue := s.ede.passesDue + 1 } := rfl
@[simp] theorem State.passFollows_ports (s : State) : s.passFollows.ports = s.ports := rfl
@[simp] theorem State.passFollows_dsh (s : State) : s.passFollows.dsh = s.dsh := rfl
@[simp] theorem State.passFollows_aua (s : State) : s.passFollows.aua = s.aua := rfl
@[simp] theorem State.passFollows_sce (s : State) : s.passFollows.sce = s.sce := rfl
@[simp] theorem State.passFollows_tbp (s : State) : s.passFollows.tbp = s.tbp := rfl
@[simp] theorem State.passFollows_wst (s : State) : s.passFollows.wst = s.wst := rfl
@[simp] theorem State.passFollows_loa (s : State) : s.passFollows.loa = s.loa := rfl
@[simp] theorem State.passFollows_lob (s : State) : s.passFollows.lob = s.lob := rfl
@[simp] theorem State.passFollows_cli (s : State) : s.passFollows.cli = s.cli := rfl
@[simp] theorem State.passFollows_rli (s : State) : s.passFollows.rli = s.rli := rfl
@[simp] theorem State.passFollows_due (s : State) : s.passFollows.due = s.due := rfl
@[simp] theorem State.passFollows_mem (s : State) : s.passFollows.mem = s.mem := rfl
@[simp] theorem State.passFollows_pending (s : State) : s.passFollows.pending = s.pending := rfl

/-! #### reach -/

@[simp] theorem State.reach_msc (s : State) (w : Nat) : (s.reach w).msc = s.msc := rfl
@[simp] theorem State.reach_scs (s : State) (w : Nat) : (s.reach w).scs = s.scs := rfl
@[simp] theorem State.reach_ede (s : State) (w : Nat) : (s.reach w).ede = s.ede := rfl
@[simp] theorem State.reach_ports (s : State) (w : Nat) : (s.reach w).ports = s.ports := rfl
@[simp] theorem State.reach_dsh (s : State) (w : Nat) : (s.reach w).dsh = s.dsh := rfl
@[simp] theorem State.reach_aua (s : State) (w : Nat) : (s.reach w).aua = s.aua := rfl
@[simp] theorem State.reach_sce (s : State) (w : Nat) : (s.reach w).sce = s.sce := rfl
@[simp] theorem State.reach_tbp (s : State) (w : Nat) : (s.reach w).tbp = { s.tbp with now := max s.tbp.now w } := rfl
@[simp] theorem State.reach_wst (s : State) (w : Nat) : (s.reach w).wst = s.wst := rfl
@[simp] theorem State.reach_loa (s : State) (w : Nat) : (s.reach w).loa = s.loa := rfl
@[simp] theorem State.reach_lob (s : State) (w : Nat) : (s.reach w).lob = s.lob := rfl
@[simp] theorem State.reach_cli (s : State) (w : Nat) : (s.reach w).cli = s.cli := rfl
@[simp] theorem State.reach_rli (s : State) (w : Nat) : (s.reach w).rli = s.rli := rfl
@[simp] theorem State.reach_due (s : State) (w : Nat) : (s.reach w).due = s.due := rfl
@[simp] theorem State.reach_mem (s : State) (w : Nat) : (s.reach w).mem = s.mem := rfl
@[simp] theorem State.reach_pending (s : State) (w : Nat) : (s.reach w).pending = s.pending := rfl

/-! #### deliverTick -/

@[simp] theorem State.deliverTick_msc (s : State) : s.deliverTick.msc = s.msc := rfl
@[simp] theorem State.deliverTick_scs (s : State) : s.deliverTick.scs = s.scs := rfl
@[simp] theorem State.deliverTick_ede (s : State) : s.deliverTick.ede = s.ede := rfl
@[simp] theorem State.deliverTick_ports (s : State) : s.deliverTick.ports = s.ports := rfl
@[simp] theorem State.deliverTick_dsh (s : State) : s.deliverTick.dsh = s.dsh := rfl
@[simp] theorem State.deliverTick_aua (s : State) : s.deliverTick.aua = s.aua := rfl
@[simp] theorem State.deliverTick_sce (s : State) : s.deliverTick.sce = s.sce := rfl
@[simp] theorem State.deliverTick_tbp (s : State) : s.deliverTick.tbp = s.tbp := rfl
@[simp] theorem State.deliverTick_wst (s : State) : s.deliverTick.wst = s.wst := rfl
@[simp] theorem State.deliverTick_loa (s : State) : s.deliverTick.loa = s.loa := rfl
@[simp] theorem State.deliverTick_lob (s : State) : s.deliverTick.lob = s.lob := rfl
@[simp] theorem State.deliverTick_cli (s : State) : s.deliverTick.cli = s.cli := rfl
@[simp] theorem State.deliverTick_rli (s : State) : s.deliverTick.rli = s.rli := rfl
@[simp] theorem State.deliverTick_mem (s : State) : s.deliverTick.mem = s.mem := rfl
@[simp] theorem State.deliverTick_pending (s : State) : s.deliverTick.pending = s.pending := rfl

/-! #### tickAt -/

@[simp] theorem State.tickAt_msc (s : State) (w : Nat) : (s.tickAt w).msc = s.msc := rfl
@[simp] theorem State.tickAt_scs (s : State) (w : Nat) : (s.tickAt w).scs = s.scs := rfl
@[simp] theorem State.tickAt_ede (s : State) (w : Nat) : (s.tickAt w).ede = s.ede := rfl
@[simp] theorem State.tickAt_ports (s : State) (w : Nat) : (s.tickAt w).ports = s.ports := rfl
@[simp] theorem State.tickAt_dsh (s : State) (w : Nat) : (s.tickAt w).dsh = s.dsh := rfl
@[simp] theorem State.tickAt_aua (s : State) (w : Nat) : (s.tickAt w).aua = s.aua := rfl
@[simp] theorem State.tickAt_sce (s : State) (w : Nat) : (s.tickAt w).sce = s.sce := rfl
@[simp] theorem State.tickAt_tbp (s : State) (w : Nat) :
    (s.tickAt w).tbp = { s.tbp with lastTick := w, now := max s.tbp.now w } := rfl
@[simp] theorem State.tickAt_wst (s : State) (w : Nat) : (s.tickAt w).wst = s.wst := rfl
@[simp] theorem State.tickAt_loa (s : State) (w : Nat) : (s.tickAt w).loa = s.loa := rfl
@[simp] theorem State.tickAt_lob (s : State) (w : Nat) : (s.tickAt w).lob = s.lob := rfl
@[simp] theorem State.tickAt_cli (s : State) (w : Nat) : (s.tickAt w).cli = s.cli := rfl
@[simp] theorem State.tickAt_rli (s : State) (w : Nat) : (s.tickAt w).rli = s.rli := rfl
@[simp] theorem State.tickAt_due (s : State) (w : Nat) : (s.tickAt w).due = s.deliverTick.due := rfl
@[simp] theorem State.tickAt_mem (s : State) (w : Nat) : (s.tickAt w).mem = s.mem := rfl
@[simp] theorem State.tickAt_pending (s : State) (w : Nat) : (s.tickAt w).pending = s.pending := rfl

/-! #### setVelocity -/

@[simp] theorem State.setVelocity_msc (s : State) (v : Int) : (s.setVelocity v).msc = s.msc := rfl
@[simp] theorem State.setVelocity_scs (s : State) (v : Int) : (s.setVelocity v).scs = s.scs := rfl
@[simp] theorem State.setVelocity_ede (s : State) (v : Int) : (s.setVelocity v).ede = s.ede := rfl
@[simp] theorem State.setVelocity_ports (s : State) (v : Int) : (s.setVelocity v).ports = s.ports := rfl
@[simp] theorem State.setVelocity_dsh (s : State) (v : Int) : (s.setVelocity v).dsh = s.dsh := rfl
@[simp] theorem State.setVelocity_aua (s : State) (v : Int) : (s.setVelocity v).aua = s.aua := rfl
@[simp] theorem State.setVelocity_sce (s : State) (v : Int) :
    (s.setVelocity v).sce = { s.sce with velocity := v } := rfl
@[simp] theorem State.setVelocity_tbp (s : State) (v : Int) : (s.setVelocity v).tbp = s.tbp := rfl
@[simp] theorem State.setVelocity_wst (s : State) (v : Int) : (s.setVelocity v).wst = s.wst := rfl
@[simp] theorem State.setVelocity_loa (s : State) (v : Int) : (s.setVelocity v).loa = s.loa := rfl
@[simp] theorem State.setVelocity_lob (s : State) (v : Int) : (s.setVelocity v).lob = s.lob := rfl
@[simp] theorem State.setVelocity_cli (s : State) (v : Int) : (s.setVelocity v).cli = s.cli := rfl
@[simp] theorem State.setVelocity_rli (s : State) (v : Int) : (s.setVelocity v).rli = s.rli := rfl
@[simp] theorem State.setVelocity_due (s : State) (v : Int) : (s.setVelocity v).due = s.due := rfl
@[simp] theorem State.setVelocity_mem (s : State) (v : Int) : (s.setVelocity v).mem = s.mem := rfl
@[simp] theorem State.setVelocity_pending (s : State) (v : Int) : (s.setVelocity v).pending = s.pending := rfl

/-! #### takeButtons -/

@[simp] theorem State.takeButtons_msc (s : State) : s.takeButtons.msc = s.msc := rfl
@[simp] theorem State.takeButtons_scs (s : State) : s.takeButtons.scs = s.scs := rfl
@[simp] theorem State.takeButtons_ede (s : State) : s.takeButtons.ede = s.ede := rfl
@[simp] theorem State.takeButtons_ports (s : State) :
    s.takeButtons.ports = s.ports.map (fun p => { p with buttons := Edges.none }) := rfl
@[simp] theorem State.takeButtons_dsh (s : State) : s.takeButtons.dsh = s.dsh := rfl
@[simp] theorem State.takeButtons_aua (s : State) : s.takeButtons.aua = s.aua := rfl
@[simp] theorem State.takeButtons_sce (s : State) : s.takeButtons.sce = s.sce.press s.holderButtons := rfl
@[simp] theorem State.takeButtons_tbp (s : State) : s.takeButtons.tbp = s.tbp := rfl
@[simp] theorem State.takeButtons_wst (s : State) : s.takeButtons.wst = s.wst := rfl
@[simp] theorem State.takeButtons_loa (s : State) : s.takeButtons.loa = s.loa := rfl
@[simp] theorem State.takeButtons_lob (s : State) : s.takeButtons.lob = s.lob := rfl
@[simp] theorem State.takeButtons_cli (s : State) : s.takeButtons.cli = s.cli := rfl
@[simp] theorem State.takeButtons_rli (s : State) : s.takeButtons.rli = s.rli := rfl
@[simp] theorem State.takeButtons_due (s : State) : s.takeButtons.due = s.due := rfl
@[simp] theorem State.takeButtons_mem (s : State) : s.takeButtons.mem = s.mem := rfl
@[simp] theorem State.takeButtons_pending (s : State) : s.takeButtons.pending = s.pending := rfl

/-! #### scrollTickTaken -/

@[simp] theorem State.scrollTickTaken_msc (s : State) : s.scrollTickTaken.msc = s.msc := rfl
@[simp] theorem State.scrollTickTaken_scs (s : State) : s.scrollTickTaken.scs = s.scs := rfl
@[simp] theorem State.scrollTickTaken_ede (s : State) : s.scrollTickTaken.ede = s.ede := rfl
@[simp] theorem State.scrollTickTaken_ports (s : State) : s.scrollTickTaken.ports = s.ports := rfl
@[simp] theorem State.scrollTickTaken_dsh (s : State) : s.scrollTickTaken.dsh = s.dsh := rfl
@[simp] theorem State.scrollTickTaken_aua (s : State) : s.scrollTickTaken.aua = s.aua := rfl
@[simp] theorem State.scrollTickTaken_sce (s : State) : s.scrollTickTaken.sce = s.sce := rfl
@[simp] theorem State.scrollTickTaken_tbp (s : State) : s.scrollTickTaken.tbp = s.tbp := rfl
@[simp] theorem State.scrollTickTaken_wst (s : State) : s.scrollTickTaken.wst = s.wst := rfl
@[simp] theorem State.scrollTickTaken_loa (s : State) : s.scrollTickTaken.loa = s.loa := rfl
@[simp] theorem State.scrollTickTaken_lob (s : State) : s.scrollTickTaken.lob = s.lob := rfl
@[simp] theorem State.scrollTickTaken_cli (s : State) : s.scrollTickTaken.cli = s.cli := rfl
@[simp] theorem State.scrollTickTaken_rli (s : State) : s.scrollTickTaken.rli = s.rli := rfl
@[simp] theorem State.scrollTickTaken_due (s : State) :
    s.scrollTickTaken.due = { s.due with scroll := s.due.scroll - 1 } := rfl
@[simp] theorem State.scrollTickTaken_mem (s : State) : s.scrollTickTaken.mem = s.mem := rfl
@[simp] theorem State.scrollTickTaken_pending (s : State) : s.scrollTickTaken.pending = s.pending := rfl

/-! #### showTimeTickTaken -/

@[simp] theorem State.showTimeTickTaken_msc (s : State) : s.showTimeTickTaken.msc = s.msc := rfl
@[simp] theorem State.showTimeTickTaken_scs (s : State) : s.showTimeTickTaken.scs = s.scs := rfl
@[simp] theorem State.showTimeTickTaken_ede (s : State) : s.showTimeTickTaken.ede = s.ede := rfl
@[simp] theorem State.showTimeTickTaken_ports (s : State) : s.showTimeTickTaken.ports = s.ports := rfl
@[simp] theorem State.showTimeTickTaken_dsh (s : State) : s.showTimeTickTaken.dsh = s.dsh := rfl
@[simp] theorem State.showTimeTickTaken_aua (s : State) : s.showTimeTickTaken.aua = s.aua := rfl
@[simp] theorem State.showTimeTickTaken_sce (s : State) : s.showTimeTickTaken.sce = s.sce := rfl
@[simp] theorem State.showTimeTickTaken_tbp (s : State) : s.showTimeTickTaken.tbp = s.tbp := rfl
@[simp] theorem State.showTimeTickTaken_wst (s : State) : s.showTimeTickTaken.wst = s.wst := rfl
@[simp] theorem State.showTimeTickTaken_loa (s : State) : s.showTimeTickTaken.loa = s.loa := rfl
@[simp] theorem State.showTimeTickTaken_lob (s : State) : s.showTimeTickTaken.lob = s.lob := rfl
@[simp] theorem State.showTimeTickTaken_cli (s : State) : s.showTimeTickTaken.cli = s.cli := rfl
@[simp] theorem State.showTimeTickTaken_rli (s : State) : s.showTimeTickTaken.rli = s.rli := rfl
@[simp] theorem State.showTimeTickTaken_due (s : State) :
    s.showTimeTickTaken.due = { s.due with showTime := s.due.showTime - 1 } := rfl
@[simp] theorem State.showTimeTickTaken_mem (s : State) : s.showTimeTickTaken.mem = s.mem := rfl
@[simp] theorem State.showTimeTickTaken_pending (s : State) : s.showTimeTickTaken.pending = s.pending := rfl

/-! #### playerTickTaken -/

@[simp] theorem State.playerTickTaken_msc (s : State) : s.playerTickTaken.msc = s.msc := rfl
@[simp] theorem State.playerTickTaken_scs (s : State) : s.playerTickTaken.scs = s.scs := rfl
@[simp] theorem State.playerTickTaken_ede (s : State) : s.playerTickTaken.ede = s.ede := rfl
@[simp] theorem State.playerTickTaken_ports (s : State) : s.playerTickTaken.ports = s.ports := rfl
@[simp] theorem State.playerTickTaken_dsh (s : State) : s.playerTickTaken.dsh = s.dsh := rfl
@[simp] theorem State.playerTickTaken_aua (s : State) : s.playerTickTaken.aua = s.aua := rfl
@[simp] theorem State.playerTickTaken_sce (s : State) : s.playerTickTaken.sce = s.sce := rfl
@[simp] theorem State.playerTickTaken_tbp (s : State) : s.playerTickTaken.tbp = s.tbp := rfl
@[simp] theorem State.playerTickTaken_wst (s : State) : s.playerTickTaken.wst = s.wst := rfl
@[simp] theorem State.playerTickTaken_loa (s : State) : s.playerTickTaken.loa = s.loa := rfl
@[simp] theorem State.playerTickTaken_lob (s : State) : s.playerTickTaken.lob = s.lob := rfl
@[simp] theorem State.playerTickTaken_cli (s : State) : s.playerTickTaken.cli = s.cli := rfl
@[simp] theorem State.playerTickTaken_rli (s : State) : s.playerTickTaken.rli = s.rli := rfl
@[simp] theorem State.playerTickTaken_due (s : State) :
    s.playerTickTaken.due = { s.due with player := s.due.player - 1 } := rfl
@[simp] theorem State.playerTickTaken_mem (s : State) : s.playerTickTaken.mem = s.mem := rfl
@[simp] theorem State.playerTickTaken_pending (s : State) : s.playerTickTaken.pending = s.pending := rfl

/-! #### passTaken -/

@[simp] theorem State.passTaken_msc (s : State) : s.passTaken.msc = s.msc := rfl
@[simp] theorem State.passTaken_scs (s : State) : s.passTaken.scs = s.scs := rfl
@[simp] theorem State.passTaken_ede (s : State) :
    s.passTaken.ede = { s.ede with passesDue := s.ede.passesDue - 1 } := rfl
@[simp] theorem State.passTaken_ports (s : State) : s.passTaken.ports = s.ports := rfl
@[simp] theorem State.passTaken_dsh (s : State) : s.passTaken.dsh = s.dsh := rfl
@[simp] theorem State.passTaken_aua (s : State) : s.passTaken.aua = s.aua := rfl
@[simp] theorem State.passTaken_sce (s : State) : s.passTaken.sce = s.sce := rfl
@[simp] theorem State.passTaken_tbp (s : State) : s.passTaken.tbp = s.tbp := rfl
@[simp] theorem State.passTaken_wst (s : State) : s.passTaken.wst = s.wst := rfl
@[simp] theorem State.passTaken_loa (s : State) : s.passTaken.loa = s.loa := rfl
@[simp] theorem State.passTaken_lob (s : State) : s.passTaken.lob = s.lob := rfl
@[simp] theorem State.passTaken_cli (s : State) : s.passTaken.cli = s.cli := rfl
@[simp] theorem State.passTaken_rli (s : State) : s.passTaken.rli = s.rli := rfl
@[simp] theorem State.passTaken_due (s : State) : s.passTaken.due = s.due := rfl
@[simp] theorem State.passTaken_mem (s : State) : s.passTaken.mem = s.mem := rfl
@[simp] theorem State.passTaken_pending (s : State) : s.passTaken.pending = s.pending := rfl

/-! #### arbiterTickTaken -/

@[simp] theorem State.arbiterTickTaken_msc (s : State) : s.arbiterTickTaken.msc = s.msc := rfl
@[simp] theorem State.arbiterTickTaken_scs (s : State) : s.arbiterTickTaken.scs = s.scs := rfl
@[simp] theorem State.arbiterTickTaken_ede (s : State) : s.arbiterTickTaken.ede = s.ede := rfl
@[simp] theorem State.arbiterTickTaken_ports (s : State) : s.arbiterTickTaken.ports = s.ports := rfl
@[simp] theorem State.arbiterTickTaken_dsh (s : State) : s.arbiterTickTaken.dsh = s.dsh := rfl
@[simp] theorem State.arbiterTickTaken_aua (s : State) : s.arbiterTickTaken.aua = s.aua := rfl
@[simp] theorem State.arbiterTickTaken_sce (s : State) : s.arbiterTickTaken.sce = s.sce := rfl
@[simp] theorem State.arbiterTickTaken_tbp (s : State) : s.arbiterTickTaken.tbp = s.tbp := rfl
@[simp] theorem State.arbiterTickTaken_wst (s : State) : s.arbiterTickTaken.wst = s.wst := rfl
@[simp] theorem State.arbiterTickTaken_loa (s : State) : s.arbiterTickTaken.loa = s.loa := rfl
@[simp] theorem State.arbiterTickTaken_lob (s : State) : s.arbiterTickTaken.lob = s.lob := rfl
@[simp] theorem State.arbiterTickTaken_cli (s : State) : s.arbiterTickTaken.cli = s.cli := rfl
@[simp] theorem State.arbiterTickTaken_rli (s : State) : s.arbiterTickTaken.rli = s.rli := rfl
@[simp] theorem State.arbiterTickTaken_due (s : State) :
    s.arbiterTickTaken.due = { s.due with arbiter := s.due.arbiter - 1 } := rfl
@[simp] theorem State.arbiterTickTaken_mem (s : State) : s.arbiterTickTaken.mem = s.mem := rfl
@[simp] theorem State.arbiterTickTaken_pending (s : State) : s.arbiterTickTaken.pending = s.pending := rfl

/-! #### portTickTaken -/

@[simp] theorem State.portTickTaken_msc (s : State) (n : Fin 4) : (s.portTickTaken n).msc = s.msc := rfl
@[simp] theorem State.portTickTaken_scs (s : State) (n : Fin 4) : (s.portTickTaken n).scs = s.scs := rfl
@[simp] theorem State.portTickTaken_ede (s : State) (n : Fin 4) : (s.portTickTaken n).ede = s.ede := rfl
@[simp] theorem State.portTickTaken_ports (s : State) (n : Fin 4) : (s.portTickTaken n).ports = s.ports := rfl
@[simp] theorem State.portTickTaken_dsh (s : State) (n : Fin 4) : (s.portTickTaken n).dsh = s.dsh := rfl
@[simp] theorem State.portTickTaken_aua (s : State) (n : Fin 4) : (s.portTickTaken n).aua = s.aua := rfl
@[simp] theorem State.portTickTaken_sce (s : State) (n : Fin 4) : (s.portTickTaken n).sce = s.sce := rfl
@[simp] theorem State.portTickTaken_tbp (s : State) (n : Fin 4) : (s.portTickTaken n).tbp = s.tbp := rfl
@[simp] theorem State.portTickTaken_wst (s : State) (n : Fin 4) : (s.portTickTaken n).wst = s.wst := rfl
@[simp] theorem State.portTickTaken_loa (s : State) (n : Fin 4) : (s.portTickTaken n).loa = s.loa := rfl
@[simp] theorem State.portTickTaken_lob (s : State) (n : Fin 4) : (s.portTickTaken n).lob = s.lob := rfl
@[simp] theorem State.portTickTaken_cli (s : State) (n : Fin 4) : (s.portTickTaken n).cli = s.cli := rfl
@[simp] theorem State.portTickTaken_rli (s : State) (n : Fin 4) : (s.portTickTaken n).rli = s.rli := rfl
@[simp] theorem State.portTickTaken_due (s : State) (n : Fin 4) :
    (s.portTickTaken n).due = { s.due with ports := s.due.ports.set n (s.due.ports.get n - 1) } := rfl
@[simp] theorem State.portTickTaken_mem (s : State) (n : Fin 4) : (s.portTickTaken n).mem = s.mem := rfl
@[simp] theorem State.portTickTaken_pending (s : State) (n : Fin 4) : (s.portTickTaken n).pending = s.pending := rfl

/-! #### setShaping -/

@[simp] theorem State.setShaping_msc (s : State) (n : Fin 4) (p : Shaping) : (s.setShaping n p).msc = s.msc := rfl
@[simp] theorem State.setShaping_scs (s : State) (n : Fin 4) (p : Shaping) : (s.setShaping n p).scs = s.scs := rfl
@[simp] theorem State.setShaping_ede (s : State) (n : Fin 4) (p : Shaping) : (s.setShaping n p).ede = s.ede := rfl
@[simp] theorem State.setShaping_ports (s : State) (n : Fin 4) (p : Shaping) : (s.setShaping n p).ports = s.ports := rfl
@[simp] theorem State.setShaping_dsh (s : State) (n : Fin 4) (p : Shaping) :
    (s.setShaping n p).dsh = s.dsh.set n p := rfl
@[simp] theorem State.setShaping_aua (s : State) (n : Fin 4) (p : Shaping) : (s.setShaping n p).aua = s.aua := rfl
@[simp] theorem State.setShaping_sce (s : State) (n : Fin 4) (p : Shaping) : (s.setShaping n p).sce = s.sce := rfl
@[simp] theorem State.setShaping_tbp (s : State) (n : Fin 4) (p : Shaping) : (s.setShaping n p).tbp = s.tbp := rfl
@[simp] theorem State.setShaping_wst (s : State) (n : Fin 4) (p : Shaping) : (s.setShaping n p).wst = s.wst := rfl
@[simp] theorem State.setShaping_loa (s : State) (n : Fin 4) (p : Shaping) : (s.setShaping n p).loa = s.loa := rfl
@[simp] theorem State.setShaping_lob (s : State) (n : Fin 4) (p : Shaping) : (s.setShaping n p).lob = s.lob := rfl
@[simp] theorem State.setShaping_cli (s : State) (n : Fin 4) (p : Shaping) : (s.setShaping n p).cli = s.cli := rfl
@[simp] theorem State.setShaping_rli (s : State) (n : Fin 4) (p : Shaping) : (s.setShaping n p).rli = s.rli := rfl
@[simp] theorem State.setShaping_due (s : State) (n : Fin 4) (p : Shaping) : (s.setShaping n p).due = s.due := rfl
@[simp] theorem State.setShaping_mem (s : State) (n : Fin 4) (p : Shaping) : (s.setShaping n p).mem = s.mem := rfl
@[simp] theorem State.setShaping_pending (s : State) (n : Fin 4) (p : Shaping) :
    (s.setShaping n p).pending = s.pending := rfl

/-! #### setTimer -/

@[simp] theorem State.setTimer_msc (s : State) (k : Fin 4) (t : CueTimer) : (s.setTimer k t).msc = s.msc := rfl
@[simp] theorem State.setTimer_scs (s : State) (k : Fin 4) (t : CueTimer) : (s.setTimer k t).scs = s.scs := rfl
@[simp] theorem State.setTimer_ede (s : State) (k : Fin 4) (t : CueTimer) : (s.setTimer k t).ede = s.ede := rfl
@[simp] theorem State.setTimer_ports (s : State) (k : Fin 4) (t : CueTimer) : (s.setTimer k t).ports = s.ports := rfl
@[simp] theorem State.setTimer_dsh (s : State) (k : Fin 4) (t : CueTimer) : (s.setTimer k t).dsh = s.dsh := rfl
@[simp] theorem State.setTimer_aua (s : State) (k : Fin 4) (t : CueTimer) : (s.setTimer k t).aua = s.aua := rfl
@[simp] theorem State.setTimer_sce (s : State) (k : Fin 4) (t : CueTimer) : (s.setTimer k t).sce = s.sce := rfl
@[simp] theorem State.setTimer_tbp (s : State) (k : Fin 4) (t : CueTimer) :
    (s.setTimer k t).tbp = { s.tbp with timers := s.tbp.timers.set k t } := rfl
@[simp] theorem State.setTimer_wst (s : State) (k : Fin 4) (t : CueTimer) : (s.setTimer k t).wst = s.wst := rfl
@[simp] theorem State.setTimer_loa (s : State) (k : Fin 4) (t : CueTimer) : (s.setTimer k t).loa = s.loa := rfl
@[simp] theorem State.setTimer_lob (s : State) (k : Fin 4) (t : CueTimer) : (s.setTimer k t).lob = s.lob := rfl
@[simp] theorem State.setTimer_cli (s : State) (k : Fin 4) (t : CueTimer) : (s.setTimer k t).cli = s.cli := rfl
@[simp] theorem State.setTimer_rli (s : State) (k : Fin 4) (t : CueTimer) : (s.setTimer k t).rli = s.rli := rfl
@[simp] theorem State.setTimer_due (s : State) (k : Fin 4) (t : CueTimer) : (s.setTimer k t).due = s.due := rfl
@[simp] theorem State.setTimer_mem (s : State) (k : Fin 4) (t : CueTimer) : (s.setTimer k t).mem = s.mem := rfl
@[simp] theorem State.setTimer_pending (s : State) (k : Fin 4) (t : CueTimer) :
    (s.setTimer k t).pending = s.pending := rfl

/-! #### setConstant -/

@[simp] theorem State.setConstant_msc (s : State) (v : Nat) : (s.setConstant v).msc = s.msc := rfl
@[simp] theorem State.setConstant_scs (s : State) (v : Nat) : (s.setConstant v).scs = s.scs := rfl
@[simp] theorem State.setConstant_ede (s : State) (v : Nat) : (s.setConstant v).ede = s.ede := rfl
@[simp] theorem State.setConstant_ports (s : State) (v : Nat) : (s.setConstant v).ports = s.ports := rfl
@[simp] theorem State.setConstant_dsh (s : State) (v : Nat) : (s.setConstant v).dsh = s.dsh := rfl
@[simp] theorem State.setConstant_aua (s : State) (v : Nat) : (s.setConstant v).aua = s.aua := rfl
@[simp] theorem State.setConstant_sce (s : State) (v : Nat) : (s.setConstant v).sce = s.sce := rfl
@[simp] theorem State.setConstant_tbp (s : State) (v : Nat) :
    (s.setConstant v).tbp = { s.tbp with constant := min v 16384 } := rfl
@[simp] theorem State.setConstant_wst (s : State) (v : Nat) : (s.setConstant v).wst = s.wst := rfl
@[simp] theorem State.setConstant_loa (s : State) (v : Nat) : (s.setConstant v).loa = s.loa := rfl
@[simp] theorem State.setConstant_lob (s : State) (v : Nat) : (s.setConstant v).lob = s.lob := rfl
@[simp] theorem State.setConstant_cli (s : State) (v : Nat) : (s.setConstant v).cli = s.cli := rfl
@[simp] theorem State.setConstant_rli (s : State) (v : Nat) : (s.setConstant v).rli = s.rli := rfl
@[simp] theorem State.setConstant_due (s : State) (v : Nat) : (s.setConstant v).due = s.due := rfl
@[simp] theorem State.setConstant_mem (s : State) (v : Nat) : (s.setConstant v).mem = s.mem := rfl
@[simp] theorem State.setConstant_pending (s : State) (v : Nat) : (s.setConstant v).pending = s.pending := rfl

/-! #### setPace -/

@[simp] theorem State.setPace_msc (s : State) (lo hi : Nat) : (s.setPace lo hi).msc = s.msc := rfl
@[simp] theorem State.setPace_scs (s : State) (lo hi : Nat) : (s.setPace lo hi).scs = s.scs := rfl
@[simp] theorem State.setPace_ede (s : State) (lo hi : Nat) : (s.setPace lo hi).ede = s.ede := rfl
@[simp] theorem State.setPace_ports (s : State) (lo hi : Nat) : (s.setPace lo hi).ports = s.ports := rfl
@[simp] theorem State.setPace_dsh (s : State) (lo hi : Nat) : (s.setPace lo hi).dsh = s.dsh := rfl
@[simp] theorem State.setPace_aua (s : State) (lo hi : Nat) : (s.setPace lo hi).aua = s.aua := rfl
@[simp] theorem State.setPace_sce (s : State) (lo hi : Nat) : (s.setPace lo hi).sce = s.sce := rfl
@[simp] theorem State.setPace_tbp (s : State) (lo hi : Nat) :
    (s.setPace lo hi).tbp = { s.tbp with paceMin := lo, paceMax := hi } := rfl
@[simp] theorem State.setPace_wst (s : State) (lo hi : Nat) : (s.setPace lo hi).wst = s.wst := rfl
@[simp] theorem State.setPace_loa (s : State) (lo hi : Nat) : (s.setPace lo hi).loa = s.loa := rfl
@[simp] theorem State.setPace_lob (s : State) (lo hi : Nat) : (s.setPace lo hi).lob = s.lob := rfl
@[simp] theorem State.setPace_cli (s : State) (lo hi : Nat) : (s.setPace lo hi).cli = s.cli := rfl
@[simp] theorem State.setPace_rli (s : State) (lo hi : Nat) : (s.setPace lo hi).rli = s.rli := rfl
@[simp] theorem State.setPace_due (s : State) (lo hi : Nat) : (s.setPace lo hi).due = s.due := rfl
@[simp] theorem State.setPace_mem (s : State) (lo hi : Nat) : (s.setPace lo hi).mem = s.mem := rfl
@[simp] theorem State.setPace_pending (s : State) (lo hi : Nat) : (s.setPace lo hi).pending = s.pending := rfl

/-! #### setSlew -/

@[simp] theorem State.setSlew_msc (s : State) (a b : Nat) : (s.setSlew a b).msc = s.msc := rfl
@[simp] theorem State.setSlew_scs (s : State) (a b : Nat) : (s.setSlew a b).scs = s.scs := rfl
@[simp] theorem State.setSlew_ede (s : State) (a b : Nat) : (s.setSlew a b).ede = s.ede := rfl
@[simp] theorem State.setSlew_ports (s : State) (a b : Nat) : (s.setSlew a b).ports = s.ports := rfl
@[simp] theorem State.setSlew_dsh (s : State) (a b : Nat) : (s.setSlew a b).dsh = s.dsh := rfl
@[simp] theorem State.setSlew_aua (s : State) (a b : Nat) : (s.setSlew a b).aua = s.aua := rfl
@[simp] theorem State.setSlew_sce (s : State) (a b : Nat) :
    (s.setSlew a b).sce = { s.sce with accel := a, decel := b } := rfl
@[simp] theorem State.setSlew_tbp (s : State) (a b : Nat) : (s.setSlew a b).tbp = s.tbp := rfl
@[simp] theorem State.setSlew_wst (s : State) (a b : Nat) : (s.setSlew a b).wst = s.wst := rfl
@[simp] theorem State.setSlew_loa (s : State) (a b : Nat) : (s.setSlew a b).loa = s.loa := rfl
@[simp] theorem State.setSlew_lob (s : State) (a b : Nat) : (s.setSlew a b).lob = s.lob := rfl
@[simp] theorem State.setSlew_cli (s : State) (a b : Nat) : (s.setSlew a b).cli = s.cli := rfl
@[simp] theorem State.setSlew_rli (s : State) (a b : Nat) : (s.setSlew a b).rli = s.rli := rfl
@[simp] theorem State.setSlew_due (s : State) (a b : Nat) : (s.setSlew a b).due = s.due := rfl
@[simp] theorem State.setSlew_mem (s : State) (a b : Nat) : (s.setSlew a b).mem = s.mem := rfl
@[simp] theorem State.setSlew_pending (s : State) (a b : Nat) : (s.setSlew a b).pending = s.pending := rfl

/-! #### setHoldOver -/

@[simp] theorem State.setHoldOver_msc (s : State) (v : Nat) : (s.setHoldOver v).msc = s.msc := rfl
@[simp] theorem State.setHoldOver_scs (s : State) (v : Nat) : (s.setHoldOver v).scs = s.scs := rfl
@[simp] theorem State.setHoldOver_ede (s : State) (v : Nat) : (s.setHoldOver v).ede = s.ede := rfl
@[simp] theorem State.setHoldOver_ports (s : State) (v : Nat) : (s.setHoldOver v).ports = s.ports := rfl
@[simp] theorem State.setHoldOver_dsh (s : State) (v : Nat) : (s.setHoldOver v).dsh = s.dsh := rfl
@[simp] theorem State.setHoldOver_aua (s : State) (v : Nat) :
    (s.setHoldOver v).aua = { s.aua with holdOverValue := v } := rfl
@[simp] theorem State.setHoldOver_sce (s : State) (v : Nat) : (s.setHoldOver v).sce = s.sce := rfl
@[simp] theorem State.setHoldOver_tbp (s : State) (v : Nat) : (s.setHoldOver v).tbp = s.tbp := rfl
@[simp] theorem State.setHoldOver_wst (s : State) (v : Nat) : (s.setHoldOver v).wst = s.wst := rfl
@[simp] theorem State.setHoldOver_loa (s : State) (v : Nat) : (s.setHoldOver v).loa = s.loa := rfl
@[simp] theorem State.setHoldOver_lob (s : State) (v : Nat) : (s.setHoldOver v).lob = s.lob := rfl
@[simp] theorem State.setHoldOver_cli (s : State) (v : Nat) : (s.setHoldOver v).cli = s.cli := rfl
@[simp] theorem State.setHoldOver_rli (s : State) (v : Nat) : (s.setHoldOver v).rli = s.rli := rfl
@[simp] theorem State.setHoldOver_due (s : State) (v : Nat) : (s.setHoldOver v).due = s.due := rfl
@[simp] theorem State.setHoldOver_mem (s : State) (v : Nat) : (s.setHoldOver v).mem = s.mem := rfl
@[simp] theorem State.setHoldOver_pending (s : State) (v : Nat) : (s.setHoldOver v).pending = s.pending := rfl

/-! #### setStore -/

@[simp] theorem State.setStore_msc (s : State) (i : ImageState) (o : StoreOp) :
    (s.setStore i o).msc = { s.msc with image := i, storeOp := o } := rfl
@[simp] theorem State.setStore_scs (s : State) (i : ImageState) (o : StoreOp) : (s.setStore i o).scs = s.scs := rfl
@[simp] theorem State.setStore_ede (s : State) (i : ImageState) (o : StoreOp) : (s.setStore i o).ede = s.ede := rfl
@[simp] theorem State.setStore_ports (s : State) (i : ImageState) (o : StoreOp) :
    (s.setStore i o).ports = s.ports := rfl
@[simp] theorem State.setStore_dsh (s : State) (i : ImageState) (o : StoreOp) : (s.setStore i o).dsh = s.dsh := rfl
@[simp] theorem State.setStore_aua (s : State) (i : ImageState) (o : StoreOp) : (s.setStore i o).aua = s.aua := rfl
@[simp] theorem State.setStore_sce (s : State) (i : ImageState) (o : StoreOp) : (s.setStore i o).sce = s.sce := rfl
@[simp] theorem State.setStore_tbp (s : State) (i : ImageState) (o : StoreOp) : (s.setStore i o).tbp = s.tbp := rfl
@[simp] theorem State.setStore_wst (s : State) (i : ImageState) (o : StoreOp) : (s.setStore i o).wst = s.wst := rfl
@[simp] theorem State.setStore_loa (s : State) (i : ImageState) (o : StoreOp) : (s.setStore i o).loa = s.loa := rfl
@[simp] theorem State.setStore_lob (s : State) (i : ImageState) (o : StoreOp) : (s.setStore i o).lob = s.lob := rfl
@[simp] theorem State.setStore_cli (s : State) (i : ImageState) (o : StoreOp) : (s.setStore i o).cli = s.cli := rfl
@[simp] theorem State.setStore_rli (s : State) (i : ImageState) (o : StoreOp) : (s.setStore i o).rli = s.rli := rfl
@[simp] theorem State.setStore_due (s : State) (i : ImageState) (o : StoreOp) : (s.setStore i o).due = s.due := rfl
@[simp] theorem State.setStore_mem (s : State) (i : ImageState) (o : StoreOp) : (s.setStore i o).mem = s.mem := rfl
@[simp] theorem State.setStore_pending (s : State) (i : ImageState) (o : StoreOp) :
    (s.setStore i o).pending = s.pending := rfl

/-! #### setPlayer -/

@[simp] theorem State.setPlayer_msc (s : State) (p : Player) : (s.setPlayer p).msc = { s.msc with player := p } := rfl
@[simp] theorem State.setPlayer_scs (s : State) (p : Player) : (s.setPlayer p).scs = s.scs := rfl
@[simp] theorem State.setPlayer_ede (s : State) (p : Player) : (s.setPlayer p).ede = s.ede := rfl
@[simp] theorem State.setPlayer_ports (s : State) (p : Player) : (s.setPlayer p).ports = s.ports := rfl
@[simp] theorem State.setPlayer_dsh (s : State) (p : Player) : (s.setPlayer p).dsh = s.dsh := rfl
@[simp] theorem State.setPlayer_aua (s : State) (p : Player) : (s.setPlayer p).aua = s.aua := rfl
@[simp] theorem State.setPlayer_sce (s : State) (p : Player) : (s.setPlayer p).sce = s.sce := rfl
@[simp] theorem State.setPlayer_tbp (s : State) (p : Player) : (s.setPlayer p).tbp = s.tbp := rfl
@[simp] theorem State.setPlayer_wst (s : State) (p : Player) : (s.setPlayer p).wst = s.wst := rfl
@[simp] theorem State.setPlayer_loa (s : State) (p : Player) : (s.setPlayer p).loa = s.loa := rfl
@[simp] theorem State.setPlayer_lob (s : State) (p : Player) : (s.setPlayer p).lob = s.lob := rfl
@[simp] theorem State.setPlayer_cli (s : State) (p : Player) : (s.setPlayer p).cli = s.cli := rfl
@[simp] theorem State.setPlayer_rli (s : State) (p : Player) : (s.setPlayer p).rli = s.rli := rfl
@[simp] theorem State.setPlayer_due (s : State) (p : Player) : (s.setPlayer p).due = s.due := rfl
@[simp] theorem State.setPlayer_mem (s : State) (p : Player) : (s.setPlayer p).mem = s.mem := rfl
@[simp] theorem State.setPlayer_pending (s : State) (p : Player) : (s.setPlayer p).pending = s.pending := rfl

/-! #### endSave -/

@[simp] theorem State.endSave_msc (s : State) (i : ImageState) (m : List Host.Cell) (o : SettingsOutcome) :
    (s.endSave i m o).msc = { s.msc with storeOp := .idle, image := i, snapshot := [] } := rfl
@[simp] theorem State.endSave_scs (s : State) (i : ImageState) (m : List Host.Cell) (o : SettingsOutcome) :
    (s.endSave i m o).scs = s.scs := rfl
@[simp] theorem State.endSave_ede (s : State) (i : ImageState) (m : List Host.Cell) (o : SettingsOutcome) :
    (s.endSave i m o).ede = s.ede := rfl
@[simp] theorem State.endSave_ports (s : State) (i : ImageState) (m : List Host.Cell) (o : SettingsOutcome) :
    (s.endSave i m o).ports = s.ports := rfl
@[simp] theorem State.endSave_dsh (s : State) (i : ImageState) (m : List Host.Cell) (o : SettingsOutcome) :
    (s.endSave i m o).dsh = s.dsh := rfl
@[simp] theorem State.endSave_aua (s : State) (i : ImageState) (m : List Host.Cell) (o : SettingsOutcome) :
    (s.endSave i m o).aua = s.aua := rfl
@[simp] theorem State.endSave_sce (s : State) (i : ImageState) (m : List Host.Cell) (o : SettingsOutcome) :
    (s.endSave i m o).sce = s.sce := rfl
@[simp] theorem State.endSave_tbp (s : State) (i : ImageState) (m : List Host.Cell) (o : SettingsOutcome) :
    (s.endSave i m o).tbp = s.tbp := rfl
@[simp] theorem State.endSave_wst (s : State) (i : ImageState) (m : List Host.Cell) (o : SettingsOutcome) :
    (s.endSave i m o).wst = s.wst := rfl
@[simp] theorem State.endSave_loa (s : State) (i : ImageState) (m : List Host.Cell) (o : SettingsOutcome) :
    (s.endSave i m o).loa = s.loa := rfl
@[simp] theorem State.endSave_lob (s : State) (i : ImageState) (m : List Host.Cell) (o : SettingsOutcome) :
    (s.endSave i m o).lob = s.lob := rfl
@[simp] theorem State.endSave_cli (s : State) (i : ImageState) (m : List Host.Cell) (o : SettingsOutcome) :
    (s.endSave i m o).cli = { s.cli with notices := raiseIn s.cli.notices .settingsState (.settings o) } := rfl
@[simp] theorem State.endSave_rli (s : State) (i : ImageState) (m : List Host.Cell) (o : SettingsOutcome) :
    (s.endSave i m o).rli = s.rli := rfl
@[simp] theorem State.endSave_due (s : State) (i : ImageState) (m : List Host.Cell) (o : SettingsOutcome) :
    (s.endSave i m o).due = s.due := rfl
@[simp] theorem State.endSave_mem (s : State) (i : ImageState) (m : List Host.Cell) (o : SettingsOutcome) :
    (s.endSave i m o).mem = m := rfl
@[simp] theorem State.endSave_pending (s : State) (i : ImageState) (m : List Host.Cell) (o : SettingsOutcome) :
    (s.endSave i m o).pending = s.pending := rfl

/-! #### settle -/

@[simp] theorem State.settle_msc (s : State) : s.settle.msc = s.msc := rfl
@[simp] theorem State.settle_scs (s : State) : s.settle.scs = s.scs := rfl
@[simp] theorem State.settle_ede (s : State) : s.settle.ede = s.ede := rfl
@[simp] theorem State.settle_ports (s : State) : s.settle.ports = s.ports := rfl
@[simp] theorem State.settle_dsh (s : State) : s.settle.dsh = s.dsh := rfl
@[simp] theorem State.settle_aua (s : State) : s.settle.aua = s.aua := rfl
@[simp] theorem State.settle_sce (s : State) : s.settle.sce = s.sce := rfl
@[simp] theorem State.settle_tbp (s : State) : s.settle.tbp = s.tbp := rfl
@[simp] theorem State.settle_wst (s : State) : s.settle.wst = s.wst := rfl
@[simp] theorem State.settle_loa (s : State) : s.settle.loa = s.loa := rfl
@[simp] theorem State.settle_lob (s : State) : s.settle.lob = s.lob := rfl
@[simp] theorem State.settle_cli (s : State) : s.settle.cli = s.cli.pump := rfl
@[simp] theorem State.settle_rli (s : State) : s.settle.rli = s.rli.pump := rfl
@[simp] theorem State.settle_due (s : State) : s.settle.due = s.due := rfl
@[simp] theorem State.settle_mem (s : State) : s.settle.mem = s.mem := rfl
@[simp] theorem State.settle_pending (s : State) : s.settle.pending = s.pending := rfl

/-! #### withCommand -/

@[simp] theorem State.withCommand_msc (s : State) (c : Instr) : (s.withCommand c).msc = s.msc := rfl
@[simp] theorem State.withCommand_scs (s : State) (c : Instr) : (s.withCommand c).scs = s.scs := rfl
@[simp] theorem State.withCommand_ede (s : State) (c : Instr) : (s.withCommand c).ede = s.ede := rfl
@[simp] theorem State.withCommand_ports (s : State) (c : Instr) : (s.withCommand c).ports = s.ports := rfl
@[simp] theorem State.withCommand_dsh (s : State) (c : Instr) : (s.withCommand c).dsh = s.dsh := rfl
@[simp] theorem State.withCommand_aua (s : State) (c : Instr) : (s.withCommand c).aua = s.aua := rfl
@[simp] theorem State.withCommand_sce (s : State) (c : Instr) : (s.withCommand c).sce = s.sce := rfl
@[simp] theorem State.withCommand_tbp (s : State) (c : Instr) : (s.withCommand c).tbp = s.tbp := rfl
@[simp] theorem State.withCommand_wst (s : State) (c : Instr) : (s.withCommand c).wst = s.wst := rfl
@[simp] theorem State.withCommand_loa (s : State) (c : Instr) : (s.withCommand c).loa = s.loa := rfl
@[simp] theorem State.withCommand_lob (s : State) (c : Instr) : (s.withCommand c).lob = s.lob := rfl
@[simp] theorem State.withCommand_cli (s : State) (c : Instr) : (s.withCommand c).cli = s.cli := rfl
@[simp] theorem State.withCommand_rli (s : State) (c : Instr) : (s.withCommand c).rli = s.rli := rfl
@[simp] theorem State.withCommand_due (s : State) (c : Instr) : (s.withCommand c).due = s.due := rfl
@[simp] theorem State.withCommand_mem (s : State) (c : Instr) : (s.withCommand c).mem = s.mem := rfl
@[simp] theorem State.withCommand_pending (s : State) (c : Instr) : (s.withCommand c).pending = c :: s.pending := rfl

/-! #### setLink -/

@[simp] theorem State.setLink_msc (s : State) (l : Link) (i : LinkIface) :
    (s.setLink l i).msc = s.msc := by cases l <;> rfl
@[simp] theorem State.setLink_scs (s : State) (l : Link) (i : LinkIface) :
    (s.setLink l i).scs = s.scs := by cases l <;> rfl
@[simp] theorem State.setLink_ede (s : State) (l : Link) (i : LinkIface) :
    (s.setLink l i).ede = s.ede := by cases l <;> rfl
@[simp] theorem State.setLink_ports (s : State) (l : Link) (i : LinkIface) :
    (s.setLink l i).ports = s.ports := by cases l <;> rfl
@[simp] theorem State.setLink_dsh (s : State) (l : Link) (i : LinkIface) :
    (s.setLink l i).dsh = s.dsh := by cases l <;> rfl
@[simp] theorem State.setLink_aua (s : State) (l : Link) (i : LinkIface) :
    (s.setLink l i).aua = s.aua := by cases l <;> rfl
@[simp] theorem State.setLink_sce (s : State) (l : Link) (i : LinkIface) :
    (s.setLink l i).sce = s.sce := by cases l <;> rfl
@[simp] theorem State.setLink_tbp (s : State) (l : Link) (i : LinkIface) :
    (s.setLink l i).tbp = s.tbp := by cases l <;> rfl
@[simp] theorem State.setLink_wst (s : State) (l : Link) (i : LinkIface) :
    (s.setLink l i).wst = s.wst := by cases l <;> rfl
@[simp] theorem State.setLink_loa (s : State) (l : Link) (i : LinkIface) :
    (s.setLink l i).loa = s.loa := by cases l <;> rfl
@[simp] theorem State.setLink_lob (s : State) (l : Link) (i : LinkIface) :
    (s.setLink l i).lob = s.lob := by cases l <;> rfl
@[simp] theorem State.setLink_due (s : State) (l : Link) (i : LinkIface) :
    (s.setLink l i).due = s.due := by cases l <;> rfl
@[simp] theorem State.setLink_mem (s : State) (l : Link) (i : LinkIface) :
    (s.setLink l i).mem = s.mem := by cases l <;> rfl
@[simp] theorem State.setLink_pending (s : State) (l : Link) (i : LinkIface) :
    (s.setLink l i).pending = s.pending := by cases l <;> rfl

/-! #### setOut -/

@[simp] theorem State.setOut_msc (s : State) (o : OutputId) (x : Output) :
    (s.setOut o x).msc = s.msc := by cases o <;> rfl
@[simp] theorem State.setOut_scs (s : State) (o : OutputId) (x : Output) :
    (s.setOut o x).scs = s.scs := by cases o <;> rfl
@[simp] theorem State.setOut_ede (s : State) (o : OutputId) (x : Output) :
    (s.setOut o x).ede = s.ede := by cases o <;> rfl
@[simp] theorem State.setOut_ports (s : State) (o : OutputId) (x : Output) :
    (s.setOut o x).ports = s.ports := by cases o <;> rfl
@[simp] theorem State.setOut_dsh (s : State) (o : OutputId) (x : Output) :
    (s.setOut o x).dsh = s.dsh := by cases o <;> rfl
@[simp] theorem State.setOut_aua (s : State) (o : OutputId) (x : Output) :
    (s.setOut o x).aua = s.aua := by cases o <;> rfl
@[simp] theorem State.setOut_sce (s : State) (o : OutputId) (x : Output) :
    (s.setOut o x).sce = s.sce := by cases o <;> rfl
@[simp] theorem State.setOut_tbp (s : State) (o : OutputId) (x : Output) :
    (s.setOut o x).tbp = s.tbp := by cases o <;> rfl
@[simp] theorem State.setOut_wst (s : State) (o : OutputId) (x : Output) :
    (s.setOut o x).wst = s.wst := by cases o <;> rfl
@[simp] theorem State.setOut_cli (s : State) (o : OutputId) (x : Output) :
    (s.setOut o x).cli = s.cli := by cases o <;> rfl
@[simp] theorem State.setOut_rli (s : State) (o : OutputId) (x : Output) :
    (s.setOut o x).rli = s.rli := by cases o <;> rfl
@[simp] theorem State.setOut_due (s : State) (o : OutputId) (x : Output) :
    (s.setOut o x).due = s.due := by cases o <;> rfl
@[simp] theorem State.setOut_mem (s : State) (o : OutputId) (x : Output) :
    (s.setOut o x).mem = s.mem := by cases o <;> rfl
@[simp] theorem State.setOut_pending (s : State) (o : OutputId) (x : Output) :
    (s.setOut o x).pending = s.pending := by cases o <;> rfl

/-! #### outTickTaken -/

@[simp] theorem State.outTickTaken_msc (s : State) (o : OutputId) : (s.outTickTaken o).msc = s.msc := by cases o <;> rfl
@[simp] theorem State.outTickTaken_scs (s : State) (o : OutputId) : (s.outTickTaken o).scs = s.scs := by cases o <;> rfl
@[simp] theorem State.outTickTaken_ede (s : State) (o : OutputId) : (s.outTickTaken o).ede = s.ede := by cases o <;> rfl
@[simp] theorem State.outTickTaken_ports (s : State) (o : OutputId) :
    (s.outTickTaken o).ports = s.ports := by cases o <;> rfl
@[simp] theorem State.outTickTaken_dsh (s : State) (o : OutputId) : (s.outTickTaken o).dsh = s.dsh := by cases o <;> rfl
@[simp] theorem State.outTickTaken_aua (s : State) (o : OutputId) : (s.outTickTaken o).aua = s.aua := by cases o <;> rfl
@[simp] theorem State.outTickTaken_sce (s : State) (o : OutputId) : (s.outTickTaken o).sce = s.sce := by cases o <;> rfl
@[simp] theorem State.outTickTaken_tbp (s : State) (o : OutputId) : (s.outTickTaken o).tbp = s.tbp := by cases o <;> rfl
@[simp] theorem State.outTickTaken_wst (s : State) (o : OutputId) : (s.outTickTaken o).wst = s.wst := by cases o <;> rfl
@[simp] theorem State.outTickTaken_loa (s : State) (o : OutputId) : (s.outTickTaken o).loa = s.loa := by cases o <;> rfl
@[simp] theorem State.outTickTaken_lob (s : State) (o : OutputId) : (s.outTickTaken o).lob = s.lob := by cases o <;> rfl
@[simp] theorem State.outTickTaken_cli (s : State) (o : OutputId) : (s.outTickTaken o).cli = s.cli := by cases o <;> rfl
@[simp] theorem State.outTickTaken_rli (s : State) (o : OutputId) : (s.outTickTaken o).rli = s.rli := by cases o <;> rfl
@[simp] theorem State.outTickTaken_mem (s : State) (o : OutputId) : (s.outTickTaken o).mem = s.mem := by cases o <;> rfl
@[simp] theorem State.outTickTaken_pending (s : State) (o : OutputId) :
    (s.outTickTaken o).pending = s.pending := by cases o <;> rfl

/-! #### setSlot -/

@[simp] theorem State.setSlot_msc (s : State) (l : Link) (x : EditSlot) :
    (s.setSlot l x).msc = s.msc := by cases l <;> rfl
@[simp] theorem State.setSlot_scs (s : State) (l : Link) (x : EditSlot) :
    (s.setSlot l x).scs = s.scs := by cases l <;> rfl
@[simp] theorem State.setSlot_ports (s : State) (l : Link) (x : EditSlot) :
    (s.setSlot l x).ports = s.ports := by cases l <;> rfl
@[simp] theorem State.setSlot_dsh (s : State) (l : Link) (x : EditSlot) :
    (s.setSlot l x).dsh = s.dsh := by cases l <;> rfl
@[simp] theorem State.setSlot_aua (s : State) (l : Link) (x : EditSlot) :
    (s.setSlot l x).aua = s.aua := by cases l <;> rfl
@[simp] theorem State.setSlot_sce (s : State) (l : Link) (x : EditSlot) :
    (s.setSlot l x).sce = s.sce := by cases l <;> rfl
@[simp] theorem State.setSlot_tbp (s : State) (l : Link) (x : EditSlot) :
    (s.setSlot l x).tbp = s.tbp := by cases l <;> rfl
@[simp] theorem State.setSlot_wst (s : State) (l : Link) (x : EditSlot) :
    (s.setSlot l x).wst = s.wst := by cases l <;> rfl
@[simp] theorem State.setSlot_loa (s : State) (l : Link) (x : EditSlot) :
    (s.setSlot l x).loa = s.loa := by cases l <;> rfl
@[simp] theorem State.setSlot_lob (s : State) (l : Link) (x : EditSlot) :
    (s.setSlot l x).lob = s.lob := by cases l <;> rfl
@[simp] theorem State.setSlot_cli (s : State) (l : Link) (x : EditSlot) :
    (s.setSlot l x).cli = s.cli := by cases l <;> rfl
@[simp] theorem State.setSlot_rli (s : State) (l : Link) (x : EditSlot) :
    (s.setSlot l x).rli = s.rli := by cases l <;> rfl
@[simp] theorem State.setSlot_due (s : State) (l : Link) (x : EditSlot) :
    (s.setSlot l x).due = s.due := by cases l <;> rfl
@[simp] theorem State.setSlot_mem (s : State) (l : Link) (x : EditSlot) :
    (s.setSlot l x).mem = s.mem := by cases l <;> rfl
@[simp] theorem State.setSlot_pending (s : State) (l : Link) (x : EditSlot) :
    (s.setSlot l x).pending = s.pending := by cases l <;> rfl

/-! #### respond -/

@[simp] theorem State.respond_msc (s : State) (l : Link) (t : Byte) (m : List Byte) (x : Status) :
    (s.respond l t m x).msc = s.msc := by cases l <;> rfl
@[simp] theorem State.respond_scs (s : State) (l : Link) (t : Byte) (m : List Byte) (x : Status) :
    (s.respond l t m x).scs = s.scs := by cases l <;> rfl
@[simp] theorem State.respond_ede (s : State) (l : Link) (t : Byte) (m : List Byte) (x : Status) :
    (s.respond l t m x).ede = s.ede := by cases l <;> rfl
@[simp] theorem State.respond_ports (s : State) (l : Link) (t : Byte) (m : List Byte) (x : Status) :
    (s.respond l t m x).ports = s.ports := by cases l <;> rfl
@[simp] theorem State.respond_dsh (s : State) (l : Link) (t : Byte) (m : List Byte) (x : Status) :
    (s.respond l t m x).dsh = s.dsh := by cases l <;> rfl
@[simp] theorem State.respond_aua (s : State) (l : Link) (t : Byte) (m : List Byte) (x : Status) :
    (s.respond l t m x).aua = s.aua := by cases l <;> rfl
@[simp] theorem State.respond_sce (s : State) (l : Link) (t : Byte) (m : List Byte) (x : Status) :
    (s.respond l t m x).sce = s.sce := by cases l <;> rfl
@[simp] theorem State.respond_tbp (s : State) (l : Link) (t : Byte) (m : List Byte) (x : Status) :
    (s.respond l t m x).tbp = s.tbp := by cases l <;> rfl
@[simp] theorem State.respond_wst (s : State) (l : Link) (t : Byte) (m : List Byte) (x : Status) :
    (s.respond l t m x).wst = s.wst := by cases l <;> rfl
@[simp] theorem State.respond_loa (s : State) (l : Link) (t : Byte) (m : List Byte) (x : Status) :
    (s.respond l t m x).loa = s.loa := by cases l <;> rfl
@[simp] theorem State.respond_lob (s : State) (l : Link) (t : Byte) (m : List Byte) (x : Status) :
    (s.respond l t m x).lob = s.lob := by cases l <;> rfl
@[simp] theorem State.respond_due (s : State) (l : Link) (t : Byte) (m : List Byte) (x : Status) :
    (s.respond l t m x).due = s.due := by cases l <;> rfl
@[simp] theorem State.respond_mem (s : State) (l : Link) (t : Byte) (m : List Byte) (x : Status) :
    (s.respond l t m x).mem = s.mem := by cases l <;> rfl
@[simp] theorem State.respond_pending (s : State) (l : Link) (t : Byte) (m : List Byte) (x : Status) :
    (s.respond l t m x).pending = s.pending := by cases l <;> rfl

/-! #### raiseCommit -/

@[simp] theorem State.raiseCommit_msc (s : State) (k : NoticeKind) (l : Link) (t : Byte) (c : Option Cause) :
    (s.raiseCommit k l t c).msc = s.msc := by cases l <;> rfl
@[simp] theorem State.raiseCommit_scs (s : State) (k : NoticeKind) (l : Link) (t : Byte) (c : Option Cause) :
    (s.raiseCommit k l t c).scs = s.scs := by cases l <;> rfl
@[simp] theorem State.raiseCommit_ede (s : State) (k : NoticeKind) (l : Link) (t : Byte) (c : Option Cause) :
    (s.raiseCommit k l t c).ede = s.ede := by cases l <;> rfl
@[simp] theorem State.raiseCommit_ports (s : State) (k : NoticeKind) (l : Link) (t : Byte) (c : Option Cause) :
    (s.raiseCommit k l t c).ports = s.ports := by cases l <;> rfl
@[simp] theorem State.raiseCommit_dsh (s : State) (k : NoticeKind) (l : Link) (t : Byte) (c : Option Cause) :
    (s.raiseCommit k l t c).dsh = s.dsh := by cases l <;> rfl
@[simp] theorem State.raiseCommit_aua (s : State) (k : NoticeKind) (l : Link) (t : Byte) (c : Option Cause) :
    (s.raiseCommit k l t c).aua = s.aua := by cases l <;> rfl
@[simp] theorem State.raiseCommit_sce (s : State) (k : NoticeKind) (l : Link) (t : Byte) (c : Option Cause) :
    (s.raiseCommit k l t c).sce = s.sce := by cases l <;> rfl
@[simp] theorem State.raiseCommit_tbp (s : State) (k : NoticeKind) (l : Link) (t : Byte) (c : Option Cause) :
    (s.raiseCommit k l t c).tbp = s.tbp := by cases l <;> rfl
@[simp] theorem State.raiseCommit_wst (s : State) (k : NoticeKind) (l : Link) (t : Byte) (c : Option Cause) :
    (s.raiseCommit k l t c).wst = s.wst := by cases l <;> rfl
@[simp] theorem State.raiseCommit_loa (s : State) (k : NoticeKind) (l : Link) (t : Byte) (c : Option Cause) :
    (s.raiseCommit k l t c).loa = s.loa := by cases l <;> rfl
@[simp] theorem State.raiseCommit_lob (s : State) (k : NoticeKind) (l : Link) (t : Byte) (c : Option Cause) :
    (s.raiseCommit k l t c).lob = s.lob := by cases l <;> rfl
@[simp] theorem State.raiseCommit_cli (s : State) (k : NoticeKind) (l : Link) (t : Byte) (c : Option Cause) :
    (s.raiseCommit k l t c).cli = { s.cli with notices := raiseIn s.cli.notices k (.commit l t c) } := by cases l <;> rfl
@[simp] theorem State.raiseCommit_due (s : State) (k : NoticeKind) (l : Link) (t : Byte) (c : Option Cause) :
    (s.raiseCommit k l t c).due = s.due := by cases l <;> rfl
@[simp] theorem State.raiseCommit_mem (s : State) (k : NoticeKind) (l : Link) (t : Byte) (c : Option Cause) :
    (s.raiseCommit k l t c).mem = s.mem := by cases l <;> rfl
@[simp] theorem State.raiseCommit_pending (s : State) (k : NoticeKind) (l : Link) (t : Byte) (c : Option Cause) :
    (s.raiseCommit k l t c).pending = s.pending := by cases l <;> rfl

end Sys2Proof.Machine
end

