-- ==== Sys2Proof/Laws/Frames.lean ====
section
/-! SUPPORT. Frames of events, the outgoing lines at the end of an event (R177), and the details of notices (R176). -/

namespace Sys2Proof.Machine

/-! ### Frames -/

theorem SameBut.refl (bs : List Block) (s : State) : SameBut bs s s := by
  intro b _; cases b <;> rfl

theorem SameBut.trans {bs : List Block} {s t u : State} (h : SameBut bs s t) (k : SameBut bs t u) : SameBut bs s u := by
  intro b hb
  have h' := h b hb
  have k' := k b hb
  cases b <;> simp only [Block.same] at * <;> exact k'.trans h'

theorem SameBut.mono {bs cs : List Block} {s t : State} (h : SameBut bs s t) (sub : ∀ b ∈ bs, b ∈ cs) : SameBut cs s t :=
  fun b hb => h b fun m => hb (sub b m)

/-- Two events one after the other leave alone what both leave alone. -/
theorem SameBut.comp {bs cs : List Block} {s t u : State} (h : SameBut bs s t) (k : SameBut cs t u) :
    SameBut (bs ++ cs) s u :=
  (h.mono (fun _ m => List.mem_append_left _ m)).trans (k.mono fun _ m => List.mem_append_right _ m)

/-- A frame as a list of equations, one for each block. -/
theorem sameBut_iff (bs : List Block) (s t : State) : SameBut bs s t ↔
    (.msc ∈ bs ∨ t.msc = s.msc) ∧ (.scs ∈ bs ∨ t.scs = s.scs) ∧ (.ede ∈ bs ∨ t.ede = s.ede) ∧
    (.ports ∈ bs ∨ t.ports = s.ports) ∧ (.dsh ∈ bs ∨ t.dsh = s.dsh) ∧ (.aua ∈ bs ∨ t.aua = s.aua) ∧
    (.sce ∈ bs ∨ t.sce = s.sce) ∧ (.tbp ∈ bs ∨ t.tbp = s.tbp) ∧ (.wst ∈ bs ∨ t.wst = s.wst) ∧
    (.loa ∈ bs ∨ t.loa = s.loa) ∧ (.lob ∈ bs ∨ t.lob = s.lob) ∧ (.cli ∈ bs ∨ t.cli = s.cli) ∧
    (.rli ∈ bs ∨ t.rli = s.rli) ∧ (.due ∈ bs ∨ t.due = s.due) ∧ (.mem ∈ bs ∨ t.mem = s.mem) ∧
    (.pending ∈ bs ∨ t.pending = s.pending) := by
  constructor
  · intro h
    have key : ∀ b : Block, b ∈ bs ∨ b.same s t := fun b => (Classical.em (b ∈ bs)).imp_right (h b)
    exact ⟨key .msc, key .scs, key .ede, key .ports, key .dsh, key .aua, key .sce, key .tbp, key .wst, key .loa,
      key .lob, key .cli, key .rli, key .due, key .mem, key .pending⟩
  · rintro ⟨h1, h2, h3, h4, h5, h6, h7, h8, h9, h10, h11, h12, h13, h14, h15, h16⟩ b hb
    cases b
    exacts [h1.resolve_left hb, h2.resolve_left hb, h3.resolve_left hb, h4.resolve_left hb, h5.resolve_left hb,
      h6.resolve_left hb, h7.resolve_left hb, h8.resolve_left hb, h9.resolve_left hb, h10.resolve_left hb,
      h11.resolve_left hb, h12.resolve_left hb, h13.resolve_left hb, h14.resolve_left hb, h15.resolve_left hb,
      h16.resolve_left hb]

/-! ### The outgoing line -/

theorem LinkIface.pump_of_line {l : LinkIface} {f : LinkFrame} (h : l.line = some f) : l.pump = l := by
  simp [LinkIface.pump, h]

theorem LinkIface.pump_response {l : LinkIface} {r : Response} {rest : List Response} (h : l.line = none)
    (hq : l.responseQueue = r :: rest) : l.pump = { l with line := some r.frame, responseQueue := rest } := by
  simp [LinkIface.pump, h, hq]

theorem LinkIface.pump_notice {l : LinkIface} {e : NoticeEntry} (h : l.line = none) (hq : l.responseQueue = [])
    (he : l.notices.find? (fun e => e.pending && e.enabled) = some e) :
    l.pump = { l with line := some e.frame, notices := l.notices.map fun x => if x.kind = e.kind then x.sent else x } := by
  simp [LinkIface.pump, h, hq, he]

theorem LinkIface.pump_idle {l : LinkIface} (hq : l.responseQueue = [])
    (he : l.notices.find? (fun e => e.pending && e.enabled) = none) : l.pump = l := by
  unfold LinkIface.pump
  split
  · rfl
  · simp [hq, he]

/-- What the pump can do: nothing, the response at the head, or a pending enabled notice. -/
theorem LinkIface.pump_cases (l : LinkIface) :
    l.pump = l ∨
    (∃ r rest, l.line = none ∧ l.responseQueue = r :: rest ∧
      l.pump = { l with line := some r.frame, responseQueue := rest }) ∨
    (∃ e, l.line = none ∧ l.responseQueue = [] ∧ l.notices.find? (fun e => e.pending && e.enabled) = some e ∧
      l.pump = { l with line := some e.frame,
                        notices := l.notices.map fun x => if x.kind = e.kind then x.sent else x }) := by
  cases hl : l.line with
  | some f => exact .inl (pump_of_line hl)
  | none =>
    cases hq : l.responseQueue with
    | cons r rest => exact .inr (.inl ⟨r, rest, rfl, rfl, pump_response hl hq⟩)
    | nil =>
      cases he : l.notices.find? (fun e => e.pending && e.enabled) with
      | none => exact .inl (pump_idle hq he)
      | some e => exact .inr (.inr ⟨e, rfl, rfl, rfl, by rw [pump_notice hl hq he, hq]⟩)

@[simp] theorem LinkIface.pump_pump (l : LinkIface) : l.pump.pump = l.pump := by
  rcases l.pump_cases with h | ⟨r, rest, -, -, h⟩ | ⟨e, -, -, -, h⟩
  · rw [h, h]
  · rw [h]; exact pump_of_line rfl
  · rw [h]; exact pump_of_line rfl

@[simp] theorem LinkIface.pump_receiver (l : LinkIface) : l.pump.receiver = l.receiver := by
  rcases l.pump_cases with h | ⟨r, rest, -, -, h⟩ | ⟨e, -, -, -, h⟩ <;> rw [h]

@[simp] theorem LinkIface.pump_receiveQueue (l : LinkIface) : l.pump.receiveQueue = l.receiveQueue := by
  rcases l.pump_cases with h | ⟨r, rest, -, -, h⟩ | ⟨e, -, -, -, h⟩ <;> rw [h]

@[simp] theorem LinkIface.pump_reading (l : LinkIface) : l.pump.reading = l.reading := by
  rcases l.pump_cases with h | ⟨r, rest, -, -, h⟩ | ⟨e, -, -, -, h⟩ <;> rw [h]

@[simp] theorem LinkIface.pump_errors (l : LinkIface) : l.pump.errors = l.errors := by
  rcases l.pump_cases with h | ⟨r, rest, -, -, h⟩ | ⟨e, -, -, -, h⟩ <;> rw [h]

theorem LinkIface.pump_responseQueue_le (l : LinkIface) : l.pump.responseQueue.length ≤ l.responseQueue.length := by
  rcases l.pump_cases with h | ⟨r, rest, -, hq, h⟩ | ⟨e, -, -, -, h⟩ <;> rw [h]
  simp [hq]

/-- The pump keeps the responses still to be finished, in order. -/
theorem LinkIface.pump_outbox_getLast {l : LinkIface} (h : l.responseQueue ≠ []) :
    l.pump.outbox.getLast? = l.outbox.getLast? := by
  rcases l.pump_cases with hp | ⟨r, rest, hl, hq, hp⟩ | ⟨e, -, hq, -, -⟩
  · rw [hp]
  · rw [hp]; simp [LinkIface.outbox, hl, hq]
  · exact absurd hq h

/-! ### The end of an event -/

theorem State.settled_iff (s : State) : s.settled = true ↔ s.cli.pump = s.cli ∧ s.rli.pump = s.rli := by
  cases s; simp [State.settled, State.settle]

theorem State.settled_link {s : State} (h : s.settled = true) (l : Link) : (s.link l).pump = s.link l := by
  cases l
  exacts [((State.settled_iff s).1 h).1, ((State.settled_iff s).1 h).2]

theorem State.settle_settled (s : State) : s.settle.settled = true := by
  simp [State.settled_iff]

theorem State.settle_eq_self {s : State} (hc : s.cli.pump = s.cli) (hr : s.rli.pump = s.rli) : s.settle = s := by
  cases s; simp_all [State.settle]

/-- An event that leaves both links as a settled state has them starts no send. -/
theorem finish_of_links {s t : State} (h : s.settled = true) (hc : t.cli = s.cli) (hr : t.rli = s.rli) :
    finish t = .next t := by
  have := (State.settled_iff s).1 h
  rw [finish, State.settle_eq_self (by rw [hc]; exact this.1) (by rw [hr]; exact this.2)]

/-- An event that changes nothing in a settled state leaves it as it was. -/
theorem finish_settled {s : State} (h : s.settled = true) : finish s = .next s :=
  finish_of_links h rfl rfl

@[simp] theorem State.settle_link (s : State) (l : Link) : s.settle.link l = (s.link l).pump := by
  cases l <;> rfl

@[simp] theorem State.settle_port (s : State) (n : Fin 4) : s.settle.port n = s.port n := rfl
@[simp] theorem State.settle_out (s : State) (o : OutputId) : s.settle.out o = s.out o := by cases o <;> rfl
@[simp] theorem State.settle_slot (s : State) (l : Link) : s.settle.slot l = s.slot l := by cases l <;> rfl
@[simp] theorem State.settle_position? (s : State) : s.settle.position? = s.position? := rfl

theorem State.settle_sameBut (s : State) : SameBut [.cli, .rli] s s.settle := by
  intro b hb; cases b <;> first | rfl | simp at hb

/-- An event on one link of a settled state: the other link is left as it was. -/
theorem finish_setLink {s : State} (h : s.settled = true) (l : Link) (i : LinkIface) :
    finish (s.setLink l i) = .next (s.setLink l i.pump) := by
  have := (State.settled_iff s).1 h
  cases l <;> simp [finish, State.settle, State.setLink, this.1, this.2]

theorem State.setLink_sameBut (s : State) (l : Link) (i : LinkIface) : SameBut [linkBlock l] s (s.setLink l i) := by
  intro b hb; cases l <;> cases b <;> first | rfl | simp [linkBlock] at hb

/-! ### Notices -/

/-- A kind is raised on a table with a detail: its entry is pending, counts one or more, and holds the detail. -/
def RaisedIn (t : List NoticeEntry) (k : NoticeKind) (d : NoticeDetail) : Prop :=
  ∀ e ∈ t, e.kind = k → e.detail = some d ∧ e.pending = true ∧ 1 ≤ e.count

theorem raisedIn_raiseIn (t : List NoticeEntry) (k : NoticeKind) (d : NoticeDetail) : RaisedIn (raiseIn t k d) k d := by
  intro e he hk
  obtain ⟨x, -, rfl⟩ := List.mem_map.1 he
  split
  · exact ⟨rfl, rfl, by simp [NoticeEntry.raised]⟩
  · next h => rw [if_neg h] at hk; exact absurd hk h

theorem RaisedIn.raiseIn_other {t : List NoticeEntry} {k j : NoticeKind} {d c : NoticeDetail} (h : RaisedIn t k d)
    (hj : j ≠ k) : RaisedIn (raiseIn t j c) k d := by
  intro e he hk
  obtain ⟨x, hx, rfl⟩ := List.mem_map.1 he
  split at hk
  · next hxj => exact absurd (hxj.symm.trans hk) hj
  · next hxj => rw [if_neg hxj]; exact h x hx hk

/-- A raise that stands at the end of an event is reported, on the table or on the line (R177). -/
theorem LinkIface.reports_pump {l : LinkIface} {k : NoticeKind} {d : NoticeDetail} (h : RaisedIn l.notices k d) :
    l.pump.reports k d := by
  rcases l.pump_cases with hp | ⟨r, rest, -, -, hp⟩ | ⟨e, -, -, hf, hp⟩ <;> rw [hp]
  · exact fun e he hk => ⟨(h e he hk).1, .inl (h e he hk).2⟩
  · exact fun e he hk => ⟨(h e he hk).1, .inl (h e he hk).2⟩
  · intro y hy hk
    obtain ⟨x, hx, rfl⟩ := List.mem_map.1 hy
    by_cases hxe : x.kind = e.kind
    · rw [if_pos hxe] at hk ⊢
      have hx' := h x hx hk
      have he' := h e (List.mem_of_find?_eq_some hf) (hxe.symm.trans hk)
      refine ⟨hx'.1, .inr ⟨e.count, he'.2.2, ?_⟩⟩
      simp [NoticeEntry.frame, NoticeEntry.sent, hxe, hx'.1, he'.1]
    · rw [if_neg hxe] at hk ⊢
      exact ⟨(h x hx hk).1, .inl (h x hx hk).2⟩

/-- A raise, with the send it may start. -/
theorem LinkIface.reports_tabled (l : LinkIface) (t : List NoticeEntry) (k : NoticeKind) (d : NoticeDetail) :
    (l.tabled (raiseIn t k d)).reports k d :=
  LinkIface.reports_pump (raisedIn_raiseIn t k d)

/-- With the table it has, a settled link stays as it is. -/
theorem LinkIface.tabled_self {l : LinkIface} (h : l.pump = l) : l.tabled l.notices = l := h

/-- A raise keeps the kinds of a table. -/
@[simp] theorem tableKinds_raiseIn (t : List NoticeEntry) (k : NoticeKind) (d : NoticeDetail) :
    tableKinds (raiseIn t k d) = tableKinds t := by
  simp only [tableKinds, raiseIn, List.map_map]
  apply List.map_congr_left
  intro e _
  simp only [Function.comp]
  split <;> rfl

end Sys2Proof.Machine
end

