-- ==== Sys2Proof/Laws/Ops.lean ====
section
/-! SUPPORT. The frames of the shared operations: for each, the blocks it leaves as they were. -/

namespace Sys2Proof.Machine

/-! ### Staging triggers and the anchor -/

@[simp] theorem State.trigger_frame (s : State) :
    s.trigger.msc = s.msc ∧ s.trigger.scs = s.scs ∧ s.trigger.ede = s.ede ∧ s.trigger.ports = s.ports ∧
    s.trigger.dsh = s.dsh ∧ s.trigger.aua = s.aua ∧ s.trigger.sce = s.sce ∧ s.trigger.tbp = s.tbp ∧
    s.trigger.loa = s.loa ∧ s.trigger.lob = s.lob ∧ s.trigger.cli = s.cli ∧ s.trigger.rli = s.rli ∧
    s.trigger.due = s.due ∧ s.trigger.mem = s.mem ∧ s.trigger.pending = s.pending := by
  unfold State.trigger; (repeat' split) <;> simp

@[simp] theorem State.publishSince_frame (s : State) (e : ScrollEngine) :
    (s.publishSince e).msc = s.msc ∧ (s.publishSince e).scs = s.scs ∧ (s.publishSince e).ede = s.ede ∧
    (s.publishSince e).ports = s.ports ∧ (s.publishSince e).dsh = s.dsh ∧ (s.publishSince e).aua = s.aua ∧
    (s.publishSince e).sce = s.sce ∧ (s.publishSince e).tbp = s.tbp ∧ (s.publishSince e).loa = s.loa ∧
    (s.publishSince e).lob = s.lob ∧ (s.publishSince e).cli = s.cli ∧ (s.publishSince e).rli = s.rli ∧
    (s.publishSince e).due = s.due ∧ (s.publishSince e).mem = s.mem ∧ (s.publishSince e).pending = s.pending := by
  unfold State.publishSince; (repeat' split) <;> simp

@[simp] theorem State.followStory_frame (s : State) :
    s.followStory.msc = s.msc ∧ s.followStory.scs = s.scs ∧ s.followStory.ede = s.ede ∧
    s.followStory.ports = s.ports ∧ s.followStory.dsh = s.dsh ∧ s.followStory.aua = s.aua ∧
    s.followStory.tbp = s.tbp ∧ s.followStory.wst = s.wst ∧ s.followStory.loa = s.loa ∧ s.followStory.lob = s.lob ∧
    s.followStory.rli = s.rli ∧ s.followStory.due = s.due ∧ s.followStory.mem = s.mem ∧
    s.followStory.pending = s.pending := by
  unfold State.followStory; (repeat' split) <;> simp

@[simp] theorem State.moveAnchor_frame (s : State) (a : Option Nat) (f : Nat) :
    (s.moveAnchor a f).msc = s.msc ∧ (s.moveAnchor a f).scs = s.scs ∧ (s.moveAnchor a f).ports = s.ports ∧
    (s.moveAnchor a f).dsh = s.dsh ∧ (s.moveAnchor a f).aua = s.aua ∧ (s.moveAnchor a f).tbp = s.tbp ∧
    (s.moveAnchor a f).wst = s.wst ∧ (s.moveAnchor a f).loa = s.loa ∧ (s.moveAnchor a f).lob = s.lob ∧
    (s.moveAnchor a f).rli = s.rli ∧ (s.moveAnchor a f).due = s.due ∧ (s.moveAnchor a f).mem = s.mem ∧
    (s.moveAnchor a f).pending = s.pending := by
  unfold State.moveAnchor; (repeat' split) <;> simp

/-! ### The arbiter and the hand ports -/

@[simp] theorem State.takeGrant_frame (s : State) (g : Grant) :
    (s.takeGrant g).msc = s.msc ∧ (s.takeGrant g).scs = s.scs ∧ (s.takeGrant g).ede = s.ede ∧
    (s.takeGrant g).ports = s.ports ∧ (s.takeGrant g).dsh = s.dsh ∧ (s.takeGrant g).sce = s.sce ∧
    (s.takeGrant g).tbp = s.tbp ∧ (s.takeGrant g).loa = s.loa ∧ (s.takeGrant g).lob = s.lob ∧
    (s.takeGrant g).rli = s.rli ∧ (s.takeGrant g).due = s.due ∧ (s.takeGrant g).mem = s.mem ∧
    (s.takeGrant g).pending = s.pending := by
  unfold State.takeGrant; (repeat' split) <;> simp

@[simp] theorem State.regrant_frame (s : State) :
    s.regrant.msc = s.msc ∧ s.regrant.scs = s.scs ∧ s.regrant.ede = s.ede ∧ s.regrant.ports = s.ports ∧
    s.regrant.dsh = s.dsh ∧ s.regrant.sce = s.sce ∧ s.regrant.tbp = s.tbp ∧ s.regrant.loa = s.loa ∧
    s.regrant.lob = s.lob ∧ s.regrant.rli = s.rli ∧ s.regrant.due = s.due ∧ s.regrant.mem = s.mem ∧
    s.regrant.pending = s.pending := by
  unfold State.regrant; simp

@[simp] theorem State.holdOverTick_frame (s : State) :
    s.holdOverTick.msc = s.msc ∧ s.holdOverTick.scs = s.scs ∧ s.holdOverTick.ede = s.ede ∧
    s.holdOverTick.ports = s.ports ∧ s.holdOverTick.dsh = s.dsh ∧ s.holdOverTick.sce = s.sce ∧
    s.holdOverTick.tbp = s.tbp ∧ s.holdOverTick.loa = s.loa ∧ s.holdOverTick.lob = s.lob ∧
    s.holdOverTick.rli = s.rli ∧ s.holdOverTick.due = s.due ∧ s.holdOverTick.mem = s.mem ∧
    s.holdOverTick.pending = s.pending := by
  unfold State.holdOverTick; (repeat' split) <;> simp

@[simp] theorem State.changePort_frame (s : State) (n : Fin 4) (p : HandPort) :
    (s.changePort n p).msc = s.msc ∧ (s.changePort n p).scs = s.scs ∧ (s.changePort n p).ede = s.ede ∧
    (s.changePort n p).dsh = s.dsh ∧ (s.changePort n p).sce = s.sce ∧ (s.changePort n p).tbp = s.tbp ∧
    (s.changePort n p).loa = s.loa ∧ (s.changePort n p).lob = s.lob ∧ (s.changePort n p).rli = s.rli ∧
    (s.changePort n p).due = s.due ∧ (s.changePort n p).mem = s.mem ∧ (s.changePort n p).pending = s.pending := by
  unfold State.changePort; (repeat' split) <;> simp

@[simp] theorem State.takePort_frame (s : State) (n : Fin 4) (p : HandPort) :
    (s.takePort n p).msc = s.msc ∧ (s.takePort n p).scs = s.scs ∧ (s.takePort n p).ede = s.ede ∧
    (s.takePort n p).dsh = s.dsh ∧ (s.takePort n p).sce = s.sce ∧ (s.takePort n p).tbp = s.tbp ∧
    (s.takePort n p).loa = s.loa ∧ (s.takePort n p).lob = s.lob ∧ (s.takePort n p).rli = s.rli ∧
    (s.takePort n p).due = s.due ∧ (s.takePort n p).mem = s.mem ∧ (s.takePort n p).pending = s.pending := by
  unfold State.takePort; (repeat' split) <;> simp

@[simp] theorem State.clearLatches_frame (s : State) :
    s.clearLatches.msc = s.msc ∧ s.clearLatches.scs = s.scs ∧ s.clearLatches.ede = s.ede ∧
    s.clearLatches.dsh = s.dsh ∧ s.clearLatches.sce = s.sce ∧ s.clearLatches.tbp = s.tbp ∧
    s.clearLatches.loa = s.loa ∧ s.clearLatches.lob = s.lob ∧ s.clearLatches.rli = s.rli ∧
    s.clearLatches.due = s.due ∧ s.clearLatches.mem = s.mem ∧ s.clearLatches.pending = s.pending := by
  unfold State.clearLatches; dsimp only; split <;> simp

/-! ### The scroll engine -/

@[simp] theorem State.reportCues_frame (s : State) (p q : Nat) :
    (s.reportCues p q).msc = s.msc ∧ (s.reportCues p q).scs = s.scs ∧ (s.reportCues p q).ede = s.ede ∧
    (s.reportCues p q).ports = s.ports ∧ (s.reportCues p q).dsh = s.dsh ∧ (s.reportCues p q).aua = s.aua ∧
    (s.reportCues p q).sce = s.sce ∧ (s.reportCues p q).tbp = s.tbp ∧ (s.reportCues p q).wst = s.wst ∧
    (s.reportCues p q).loa = s.loa ∧ (s.reportCues p q).lob = s.lob ∧ (s.reportCues p q).rli = s.rli ∧
    (s.reportCues p q).due = s.due ∧ (s.reportCues p q).mem = s.mem ∧ (s.reportCues p q).pending = s.pending := by
  unfold State.reportCues; (repeat' split) <;> simp

@[simp] theorem State.takeLanding_frame (s : State) (l : Landing) :
    (s.takeLanding l).msc = s.msc ∧ (s.takeLanding l).scs = s.scs ∧ (s.takeLanding l).ports = s.ports ∧
    (s.takeLanding l).dsh = s.dsh ∧ (s.takeLanding l).aua = s.aua ∧ (s.takeLanding l).tbp = s.tbp ∧
    (s.takeLanding l).wst = s.wst ∧ (s.takeLanding l).loa = s.loa ∧ (s.takeLanding l).lob = s.lob ∧
    (s.takeLanding l).rli = s.rli ∧ (s.takeLanding l).due = s.due ∧ (s.takeLanding l).mem = s.mem ∧
    (s.takeLanding l).pending = s.pending := by
  unfold State.takeLanding; (repeat' split) <;> simp

@[simp] theorem State.integrate_frame (s : State) (p : Nat) (v : Int) :
    (s.integrate p v).msc = s.msc ∧ (s.integrate p v).scs = s.scs ∧ (s.integrate p v).ports = s.ports ∧
    (s.integrate p v).dsh = s.dsh ∧ (s.integrate p v).aua = s.aua ∧ (s.integrate p v).tbp = s.tbp ∧
    (s.integrate p v).wst = s.wst ∧ (s.integrate p v).loa = s.loa ∧ (s.integrate p v).lob = s.lob ∧
    (s.integrate p v).rli = s.rli ∧ (s.integrate p v).due = s.due ∧ (s.integrate p v).mem = s.mem ∧
    (s.integrate p v).pending = s.pending := by
  unfold State.integrate; (repeat' split) <;> simp

@[simp] theorem State.drive_frame (s : State) (p : Nat) :
    (s.drive p).msc = s.msc ∧ (s.drive p).scs = s.scs ∧ (s.drive p).ports = s.ports ∧ (s.drive p).dsh = s.dsh ∧
    (s.drive p).aua = s.aua ∧ (s.drive p).tbp = s.tbp ∧ (s.drive p).wst = s.wst ∧ (s.drive p).loa = s.loa ∧
    (s.drive p).lob = s.lob ∧ (s.drive p).rli = s.rli ∧ (s.drive p).due = s.due ∧ (s.drive p).mem = s.mem ∧
    (s.drive p).pending = s.pending := by
  unfold State.drive; simp

@[simp] theorem State.applyJump_frame (s : State) (t : JumpTarget) :
    (s.applyJump t).msc = s.msc ∧ (s.applyJump t).scs = s.scs ∧ (s.applyJump t).ports = s.ports ∧
    (s.applyJump t).dsh = s.dsh ∧ (s.applyJump t).aua = s.aua ∧ (s.applyJump t).tbp = s.tbp ∧
    (s.applyJump t).wst = s.wst ∧ (s.applyJump t).loa = s.loa ∧ (s.applyJump t).lob = s.lob ∧
    (s.applyJump t).rli = s.rli ∧ (s.applyJump t).due = s.due ∧ (s.applyJump t).mem = s.mem ∧
    (s.applyJump t).pending = s.pending := by
  unfold State.applyJump; (repeat' split) <;> simp

@[simp] theorem State.stepMove_frame (s : State) :
    s.stepMove.msc = s.msc ∧ s.stepMove.scs = s.scs ∧ s.stepMove.ports = s.ports ∧ s.stepMove.dsh = s.dsh ∧
    s.stepMove.aua = s.aua ∧ s.stepMove.tbp = s.tbp ∧ s.stepMove.wst = s.wst ∧ s.stepMove.loa = s.loa ∧
    s.stepMove.lob = s.lob ∧ s.stepMove.rli = s.rli ∧ s.stepMove.due = s.due ∧ s.stepMove.mem = s.mem ∧
    s.stepMove.pending = s.pending := by
  unfold State.stepMove; (repeat' split) <;> simp

@[simp] theorem State.scrollStep_frame (s : State) :
    s.scrollStep.msc = s.msc ∧ s.scrollStep.scs = s.scs ∧ s.scrollStep.dsh = s.dsh ∧ s.scrollStep.aua = s.aua ∧
    s.scrollStep.tbp = s.tbp ∧ s.scrollStep.loa = s.loa ∧ s.scrollStep.lob = s.lob ∧ s.scrollStep.rli = s.rli ∧
    s.scrollStep.due = s.due ∧ s.scrollStep.mem = s.mem ∧ s.scrollStep.pending = s.pending := by
  unfold State.scrollStep; simp

@[simp] theorem State.relocate_frame (s : State) (r : ContentReport) :
    (s.relocate r).msc = s.msc ∧ (s.relocate r).scs = s.scs ∧ (s.relocate r).ports = s.ports ∧
    (s.relocate r).dsh = s.dsh ∧ (s.relocate r).aua = s.aua ∧ (s.relocate r).tbp = s.tbp ∧
    (s.relocate r).wst = s.wst ∧ (s.relocate r).loa = s.loa ∧ (s.relocate r).lob = s.lob ∧
    (s.relocate r).rli = s.rli ∧ (s.relocate r).due = s.due ∧ (s.relocate r).mem = s.mem ∧
    (s.relocate r).pending = s.pending := by
  unfold State.relocate; (repeat' split) <;> simp

@[simp] theorem State.endTest_frame (s : State) :
    s.endTest.msc = s.msc ∧ s.endTest.scs = s.scs ∧ s.endTest.ede = s.ede ∧ s.endTest.ports = s.ports ∧
    s.endTest.dsh = s.dsh ∧ s.endTest.aua = s.aua ∧ s.endTest.tbp = s.tbp ∧ s.endTest.wst = s.wst ∧
    s.endTest.loa = s.loa ∧ s.endTest.lob = s.lob ∧ s.endTest.cli = s.cli ∧ s.endTest.rli = s.rli ∧
    s.endTest.due = s.due ∧ s.endTest.mem = s.mem ∧ s.endTest.pending = s.pending := by
  unfold State.endTest; (repeat' split) <;> simp

@[simp] theorem State.firstAnchor_frame (s : State) (r : ContentReport) :
    (s.firstAnchor r).msc = s.msc ∧ (s.firstAnchor r).scs = s.scs ∧ (s.firstAnchor r).ports = s.ports ∧
    (s.firstAnchor r).dsh = s.dsh ∧ (s.firstAnchor r).aua = s.aua ∧ (s.firstAnchor r).tbp = s.tbp ∧
    (s.firstAnchor r).wst = s.wst ∧ (s.firstAnchor r).loa = s.loa ∧ (s.firstAnchor r).lob = s.lob ∧
    (s.firstAnchor r).rli = s.rli ∧ (s.firstAnchor r).due = s.due ∧ (s.firstAnchor r).mem = s.mem ∧
    (s.firstAnchor r).pending = s.pending := by
  unfold State.firstAnchor; (repeat' split) <;> simp

@[simp] theorem State.takeApply_frame (s : State) (r : ContentReport) :
    (s.takeApply r).msc = s.msc ∧ (s.takeApply r).scs = s.scs ∧ (s.takeApply r).ports = s.ports ∧
    (s.takeApply r).dsh = s.dsh ∧ (s.takeApply r).aua = s.aua ∧ (s.takeApply r).tbp = s.tbp ∧
    (s.takeApply r).loa = s.loa ∧ (s.takeApply r).lob = s.lob ∧ (s.takeApply r).rli = s.rli ∧
    (s.takeApply r).due = s.due ∧ (s.takeApply r).mem = s.mem ∧ (s.takeApply r).pending = s.pending := by
  unfold State.takeApply; simp

@[simp] theorem State.anchorEmptied_frame (s : State) (e : ScrollEngine) :
    (s.anchorEmptied e).msc = s.msc ∧ (s.anchorEmptied e).scs = s.scs ∧ (s.anchorEmptied e).ports = s.ports ∧
    (s.anchorEmptied e).dsh = s.dsh ∧ (s.anchorEmptied e).aua = s.aua ∧ (s.anchorEmptied e).sce = s.sce ∧
    (s.anchorEmptied e).tbp = s.tbp ∧ (s.anchorEmptied e).wst = s.wst ∧ (s.anchorEmptied e).loa = s.loa ∧
    (s.anchorEmptied e).lob = s.lob ∧ (s.anchorEmptied e).cli = s.cli ∧ (s.anchorEmptied e).rli = s.rli ∧
    (s.anchorEmptied e).due = s.due ∧ (s.anchorEmptied e).mem = s.mem ∧ (s.anchorEmptied e).pending = s.pending := by
  unfold State.anchorEmptied; (repeat' split) <;> simp

@[simp] theorem State.consoleStopped_frame (s : State) (e : ScrollEngine) :
    (s.consoleStopped e).msc = s.msc ∧ (s.consoleStopped e).scs = s.scs ∧ (s.consoleStopped e).ede = s.ede ∧
    (s.consoleStopped e).ports = s.ports ∧ (s.consoleStopped e).dsh = s.dsh ∧ (s.consoleStopped e).sce = s.sce ∧
    (s.consoleStopped e).tbp = s.tbp ∧ (s.consoleStopped e).loa = s.loa ∧ (s.consoleStopped e).lob = s.lob ∧
    (s.consoleStopped e).rli = s.rli ∧ (s.consoleStopped e).due = s.due ∧ (s.consoleStopped e).mem = s.mem ∧
    (s.consoleStopped e).pending = s.pending := by
  unfold State.consoleStopped; (repeat' split) <;> simp

@[simp] theorem State.takeClear_frame (s : State) :
    s.takeClear.msc = s.msc ∧ s.takeClear.scs = s.scs ∧ s.takeClear.ports = s.ports ∧ s.takeClear.dsh = s.dsh ∧
    s.takeClear.tbp = s.tbp ∧ s.takeClear.loa = s.loa ∧ s.takeClear.lob = s.lob ∧ s.takeClear.rli = s.rli ∧
    s.takeClear.due = s.due ∧ s.takeClear.mem = s.mem ∧ s.takeClear.pending = s.pending := by
  unfold State.takeClear; simp

@[simp] theorem State.takeReport_frame (s : State) (r : ContentReport) :
    (s.takeReport r).msc = s.msc ∧ (s.takeReport r).scs = s.scs ∧ (s.takeReport r).ports = s.ports ∧
    (s.takeReport r).dsh = s.dsh ∧ (s.takeReport r).tbp = s.tbp ∧ (s.takeReport r).loa = s.loa ∧
    (s.takeReport r).lob = s.lob ∧ (s.takeReport r).rli = s.rli ∧ (s.takeReport r).due = s.due ∧
    (s.takeReport r).mem = s.mem ∧ (s.takeReport r).pending = s.pending := by
  unfold State.takeReport; (repeat' split) <;> simp

@[simp] theorem State.setManualSpeed_frame (s : State) (v : Int) :
    (s.setManualSpeed v).msc = s.msc ∧ (s.setManualSpeed v).scs = s.scs ∧ (s.setManualSpeed v).ede = s.ede ∧
    (s.setManualSpeed v).ports = s.ports ∧ (s.setManualSpeed v).dsh = s.dsh ∧ (s.setManualSpeed v).tbp = s.tbp ∧
    (s.setManualSpeed v).loa = s.loa ∧ (s.setManualSpeed v).lob = s.lob ∧ (s.setManualSpeed v).rli = s.rli ∧
    (s.setManualSpeed v).due = s.due ∧ (s.setManualSpeed v).mem = s.mem ∧ (s.setManualSpeed v).pending = s.pending := by
  unfold State.setManualSpeed; (repeat' split) <;> simp

/-! ### The edit engine -/

@[simp] theorem State.applyEntry_frame (s : State) (e : Entry) :
    (s.applyEntry e).msc = s.msc ∧ (s.applyEntry e).ports = s.ports ∧ (s.applyEntry e).dsh = s.dsh ∧
    (s.applyEntry e).aua = s.aua ∧ (s.applyEntry e).tbp = s.tbp ∧ (s.applyEntry e).loa = s.loa ∧
    (s.applyEntry e).lob = s.lob ∧ (s.applyEntry e).due = s.due ∧ (s.applyEntry e).mem = s.mem ∧
    (s.applyEntry e).pending = s.pending := by
  unfold State.applyEntry; simp [State.takeReport, Store.report]

@[simp] theorem State.dropEntry_frame (s : State) (e : Entry) (c : Cause) :
    (s.dropEntry e c).msc = s.msc ∧ (s.dropEntry e c).ports = s.ports ∧ (s.dropEntry e c).dsh = s.dsh ∧
    (s.dropEntry e c).aua = s.aua ∧ (s.dropEntry e c).sce = s.sce ∧ (s.dropEntry e c).tbp = s.tbp ∧
    (s.dropEntry e c).wst = s.wst ∧ (s.dropEntry e c).loa = s.loa ∧ (s.dropEntry e c).lob = s.lob ∧
    (s.dropEntry e c).due = s.due ∧ (s.dropEntry e c).mem = s.mem ∧ (s.dropEntry e c).pending = s.pending := by
  unfold State.dropEntry; simp

@[simp] theorem State.noteDeferred_frame (s : State) (e : Entry) :
    (s.noteDeferred e).msc = s.msc ∧ (s.noteDeferred e).scs = s.scs ∧ (s.noteDeferred e).ede = s.ede ∧
    (s.noteDeferred e).ports = s.ports ∧ (s.noteDeferred e).dsh = s.dsh ∧ (s.noteDeferred e).aua = s.aua ∧
    (s.noteDeferred e).sce = s.sce ∧ (s.noteDeferred e).tbp = s.tbp ∧ (s.noteDeferred e).wst = s.wst ∧
    (s.noteDeferred e).loa = s.loa ∧ (s.noteDeferred e).lob = s.lob ∧ (s.noteDeferred e).due = s.due ∧
    (s.noteDeferred e).mem = s.mem ∧ (s.noteDeferred e).pending = s.pending := by
  unfold State.noteDeferred; (repeat' split) <;> simp

@[simp] theorem State.passFrom_frame (s : State) (earlier rest : List Entry) :
    (s.passFrom earlier rest).msc = s.msc ∧ (s.passFrom earlier rest).ports = s.ports ∧
    (s.passFrom earlier rest).dsh = s.dsh ∧ (s.passFrom earlier rest).aua = s.aua ∧
    (s.passFrom earlier rest).tbp = s.tbp ∧ (s.passFrom earlier rest).loa = s.loa ∧
    (s.passFrom earlier rest).lob = s.lob ∧ (s.passFrom earlier rest).due = s.due ∧
    (s.passFrom earlier rest).mem = s.mem ∧ (s.passFrom earlier rest).pending = s.pending := by
  induction rest generalizing s earlier with
  | nil => simp [State.passFrom]
  | cons e rest ih => unfold State.passFrom; (repeat' split) <;> simp [ih]

@[simp] theorem State.pass_frame (s : State) :
    s.pass.msc = s.msc ∧ s.pass.ports = s.ports ∧ s.pass.dsh = s.dsh ∧ s.pass.aua = s.aua ∧ s.pass.tbp = s.tbp ∧
    s.pass.loa = s.loa ∧ s.pass.lob = s.lob ∧ s.pass.due = s.due ∧ s.pass.mem = s.mem ∧ s.pass.pending = s.pending := by
  unfold State.pass; simp

@[simp] theorem State.copyDone_frame (s : State) (l : Link) (p : Page) (e : Entry) :
    (s.copyDone l p e).msc = s.msc ∧ (s.copyDone l p e).ports = s.ports ∧ (s.copyDone l p e).dsh = s.dsh ∧
    (s.copyDone l p e).aua = s.aua ∧ (s.copyDone l p e).tbp = s.tbp ∧ (s.copyDone l p e).loa = s.loa ∧
    (s.copyDone l p e).lob = s.lob ∧ (s.copyDone l p e).due = s.due ∧ (s.copyDone l p e).mem = s.mem ∧
    (s.copyDone l p e).pending = s.pending := by
  unfold State.copyDone; (repeat' split) <;> simp

@[simp] theorem State.clearShow_frame (s : State) :
    s.clearShow.msc = s.msc ∧ s.clearShow.ports = s.ports ∧ s.clearShow.dsh = s.dsh ∧ s.clearShow.tbp = s.tbp ∧
    s.clearShow.loa = s.loa ∧ s.clearShow.lob = s.lob ∧ s.clearShow.rli = s.rli ∧ s.clearShow.due = s.due ∧
    s.clearShow.mem = s.mem ∧ s.clearShow.pending = s.pending := by
  unfold State.clearShow; simp [State.takeReport, Store.clearReport]

/-! ### The timebase -/

@[simp] theorem State.enterRef_frame (s : State) (r : RefState) :
    (s.enterRef r).msc = s.msc ∧ (s.enterRef r).scs = s.scs ∧ (s.enterRef r).ede = s.ede ∧
    (s.enterRef r).ports = s.ports ∧ (s.enterRef r).dsh = s.dsh ∧ (s.enterRef r).aua = s.aua ∧
    (s.enterRef r).sce = s.sce ∧ (s.enterRef r).wst = s.wst ∧ (s.enterRef r).loa = s.loa ∧
    (s.enterRef r).lob = s.lob ∧ (s.enterRef r).rli = s.rli ∧ (s.enterRef r).due = s.due ∧
    (s.enterRef r).mem = s.mem ∧ (s.enterRef r).pending = s.pending := by
  unfold State.enterRef; (repeat' split) <;> simp

@[simp] theorem State.overdueTick_frame (s : State) :
    s.overdueTick.msc = s.msc ∧ s.overdueTick.scs = s.scs ∧ s.overdueTick.ede = s.ede ∧
    s.overdueTick.ports = s.ports ∧ s.overdueTick.dsh = s.dsh ∧ s.overdueTick.aua = s.aua ∧
    s.overdueTick.sce = s.sce ∧ s.overdueTick.wst = s.wst ∧ s.overdueTick.loa = s.loa ∧ s.overdueTick.lob = s.lob ∧
    s.overdueTick.cli = s.cli ∧ s.overdueTick.rli = s.rli ∧ s.overdueTick.mem = s.mem ∧
    s.overdueTick.pending = s.pending := by
  unfold State.overdueTick; (repeat' split) <;> simp

@[simp] theorem State.lockedEdge_frame (s : State) :
    s.lockedEdge.msc = s.msc ∧ s.lockedEdge.scs = s.scs ∧ s.lockedEdge.ede = s.ede ∧ s.lockedEdge.ports = s.ports ∧
    s.lockedEdge.dsh = s.dsh ∧ s.lockedEdge.aua = s.aua ∧ s.lockedEdge.sce = s.sce ∧ s.lockedEdge.wst = s.wst ∧
    s.lockedEdge.loa = s.loa ∧ s.lockedEdge.lob = s.lob ∧ s.lockedEdge.cli = s.cli ∧ s.lockedEdge.rli = s.rli ∧
    s.lockedEdge.mem = s.mem ∧ s.lockedEdge.pending = s.pending := by
  unfold State.lockedEdge; (repeat' split) <;> simp

@[simp] theorem State.setRefSelect_frame (s : State) (on : Bool) :
    (s.setRefSelect on).msc = s.msc ∧ (s.setRefSelect on).scs = s.scs ∧ (s.setRefSelect on).ede = s.ede ∧
    (s.setRefSelect on).ports = s.ports ∧ (s.setRefSelect on).dsh = s.dsh ∧ (s.setRefSelect on).aua = s.aua ∧
    (s.setRefSelect on).sce = s.sce ∧ (s.setRefSelect on).wst = s.wst ∧ (s.setRefSelect on).loa = s.loa ∧
    (s.setRefSelect on).lob = s.lob ∧ (s.setRefSelect on).rli = s.rli ∧ (s.setRefSelect on).mem = s.mem ∧
    (s.setRefSelect on).pending = s.pending := by
  unfold State.setRefSelect; (repeat' split) <;> simp

@[simp] theorem State.setRate_frame (s : State) (r : Rate) :
    (s.setRate r).msc = s.msc ∧ (s.setRate r).scs = s.scs ∧ (s.setRate r).ede = s.ede ∧
    (s.setRate r).ports = s.ports ∧ (s.setRate r).dsh = s.dsh ∧ (s.setRate r).aua = s.aua ∧
    (s.setRate r).sce = s.sce ∧ (s.setRate r).wst = s.wst ∧ (s.setRate r).loa = s.loa ∧ (s.setRate r).lob = s.lob ∧
    (s.setRate r).cli = s.cli ∧ (s.setRate r).rli = s.rli ∧ (s.setRate r).mem = s.mem ∧
    (s.setRate r).pending = s.pending := by
  unfold State.setRate; (repeat' split) <;> simp

@[simp] theorem State.advanceClock_frame (s : State) :
    s.advanceClock.msc = s.msc ∧ s.advanceClock.scs = s.scs ∧ s.advanceClock.ede = s.ede ∧
    s.advanceClock.ports = s.ports ∧ s.advanceClock.dsh = s.dsh ∧ s.advanceClock.aua = s.aua ∧
    s.advanceClock.sce = s.sce ∧ s.advanceClock.wst = s.wst ∧ s.advanceClock.loa = s.loa ∧
    s.advanceClock.lob = s.lob ∧ s.advanceClock.cli = s.cli ∧ s.advanceClock.rli = s.rli ∧
    s.advanceClock.due = s.due ∧ s.advanceClock.mem = s.mem ∧ s.advanceClock.pending = s.pending := by
  unfold State.advanceClock; (repeat' split) <;> simp

@[simp] theorem State.fireTimer_frame (s : State) (k : Fin 4) :
    (s.fireTimer k).msc = s.msc ∧ (s.fireTimer k).scs = s.scs ∧ (s.fireTimer k).ede = s.ede ∧
    (s.fireTimer k).ports = s.ports ∧ (s.fireTimer k).dsh = s.dsh ∧ (s.fireTimer k).aua = s.aua ∧
    (s.fireTimer k).sce = s.sce ∧ (s.fireTimer k).wst = s.wst ∧ (s.fireTimer k).loa = s.loa ∧
    (s.fireTimer k).lob = s.lob ∧ (s.fireTimer k).rli = s.rli ∧ (s.fireTimer k).due = s.due ∧
    (s.fireTimer k).mem = s.mem ∧ (s.fireTimer k).pending = s.pending := by
  unfold State.fireTimer; dsimp only; split <;> simp

@[simp] theorem State.fireTimers_frame (s : State) :
    s.fireTimers.msc = s.msc ∧ s.fireTimers.scs = s.scs ∧ s.fireTimers.ede = s.ede ∧ s.fireTimers.ports = s.ports ∧
    s.fireTimers.dsh = s.dsh ∧ s.fireTimers.aua = s.aua ∧ s.fireTimers.sce = s.sce ∧ s.fireTimers.wst = s.wst ∧
    s.fireTimers.loa = s.loa ∧ s.fireTimers.lob = s.lob ∧ s.fireTimers.rli = s.rli ∧ s.fireTimers.due = s.due ∧
    s.fireTimers.mem = s.mem ∧ s.fireTimers.pending = s.pending := by
  unfold State.fireTimers; simp

@[simp] theorem State.backTime_frame (s : State) :
    s.backTime.msc = s.msc ∧ s.backTime.ede = s.ede ∧ s.backTime.ports = s.ports ∧ s.backTime.dsh = s.dsh ∧
    s.backTime.aua = s.aua ∧ s.backTime.sce = s.sce ∧ s.backTime.tbp = s.tbp ∧ s.backTime.wst = s.wst ∧
    s.backTime.loa = s.loa ∧ s.backTime.lob = s.lob ∧ s.backTime.rli = s.rli ∧ s.backTime.due = s.due ∧
    s.backTime.mem = s.mem ∧ s.backTime.pending = s.pending := by
  unfold State.backTime; (repeat' split) <;> simp

@[simp] theorem State.setAutoMode_frame (s : State) (m : AutoMode) :
    (s.setAutoMode m).msc = s.msc ∧ (s.setAutoMode m).scs = s.scs ∧ (s.setAutoMode m).ede = s.ede ∧
    (s.setAutoMode m).ports = s.ports ∧ (s.setAutoMode m).dsh = s.dsh ∧ (s.setAutoMode m).sce = s.sce ∧
    (s.setAutoMode m).loa = s.loa ∧ (s.setAutoMode m).lob = s.lob ∧ (s.setAutoMode m).rli = s.rli ∧
    (s.setAutoMode m).due = s.due ∧ (s.setAutoMode m).mem = s.mem ∧ (s.setAutoMode m).pending = s.pending := by
  unfold State.setAutoMode; (repeat' split) <;> simp

@[simp] theorem State.setConstant?_frame (s : State) (v : Option Nat) :
    (s.setConstant? v).msc = s.msc ∧ (s.setConstant? v).scs = s.scs ∧ (s.setConstant? v).ede = s.ede ∧
    (s.setConstant? v).ports = s.ports ∧ (s.setConstant? v).dsh = s.dsh ∧ (s.setConstant? v).aua = s.aua ∧
    (s.setConstant? v).sce = s.sce ∧ (s.setConstant? v).wst = s.wst ∧ (s.setConstant? v).loa = s.loa ∧
    (s.setConstant? v).lob = s.lob ∧ (s.setConstant? v).cli = s.cli ∧ (s.setConstant? v).rli = s.rli ∧
    (s.setConstant? v).due = s.due ∧ (s.setConstant? v).mem = s.mem ∧ (s.setConstant? v).pending = s.pending := by
  unfold State.setConstant?; (repeat' split) <;> simp

/-! ### Staging, settings and modes -/

@[simp] theorem State.stagingDone_frame (s : State) (f : Frame) :
    (s.stagingDone f).msc = s.msc ∧ (s.stagingDone f).scs = s.scs ∧ (s.stagingDone f).ede = s.ede ∧
    (s.stagingDone f).ports = s.ports ∧ (s.stagingDone f).dsh = s.dsh ∧ (s.stagingDone f).aua = s.aua ∧
    (s.stagingDone f).sce = s.sce ∧ (s.stagingDone f).tbp = s.tbp ∧ (s.stagingDone f).loa = s.loa ∧
    (s.stagingDone f).lob = s.lob ∧ (s.stagingDone f).cli = s.cli ∧ (s.stagingDone f).rli = s.rli ∧
    (s.stagingDone f).due = s.due ∧ (s.stagingDone f).mem = s.mem ∧ (s.stagingDone f).pending = s.pending := by
  unfold State.stagingDone; (repeat' split) <;> simp

@[simp] theorem State.setGeometry_frame (s : State) (r e : Nat) :
    (s.setGeometry r e).msc = s.msc ∧ (s.setGeometry r e).scs = s.scs ∧ (s.setGeometry r e).ede = s.ede ∧
    (s.setGeometry r e).ports = s.ports ∧ (s.setGeometry r e).dsh = s.dsh ∧ (s.setGeometry r e).aua = s.aua ∧
    (s.setGeometry r e).sce = s.sce ∧ (s.setGeometry r e).tbp = s.tbp ∧ (s.setGeometry r e).loa = s.loa ∧
    (s.setGeometry r e).lob = s.lob ∧ (s.setGeometry r e).cli = s.cli ∧ (s.setGeometry r e).rli = s.rli ∧
    (s.setGeometry r e).due = s.due ∧ (s.setGeometry r e).mem = s.mem ∧ (s.setGeometry r e).pending = s.pending := by
  unfold State.setGeometry; (repeat' split) <;> simp

@[simp] theorem State.setGuards_frame (s : State) (a b : Nat) :
    (s.setGuards a b).msc = s.msc ∧ (s.setGuards a b).scs = s.scs ∧ (s.setGuards a b).ports = s.ports ∧
    (s.setGuards a b).dsh = s.dsh ∧ (s.setGuards a b).aua = s.aua ∧ (s.setGuards a b).sce = s.sce ∧
    (s.setGuards a b).tbp = s.tbp ∧ (s.setGuards a b).wst = s.wst ∧ (s.setGuards a b).loa = s.loa ∧
    (s.setGuards a b).lob = s.lob ∧ (s.setGuards a b).cli = s.cli ∧ (s.setGuards a b).rli = s.rli ∧
    (s.setGuards a b).due = s.due ∧ (s.setGuards a b).mem = s.mem ∧ (s.setGuards a b).pending = s.pending := by
  unfold State.setGuards; (repeat' split) <;> simp

@[simp] theorem State.setArbiter_frame (s : State) (v : Settings) :
    (s.setArbiter v).msc = s.msc ∧ (s.setArbiter v).scs = s.scs ∧ (s.setArbiter v).ede = s.ede ∧
    (s.setArbiter v).ports = s.ports ∧ (s.setArbiter v).dsh = s.dsh ∧ (s.setArbiter v).sce = s.sce ∧
    (s.setArbiter v).tbp = s.tbp ∧ (s.setArbiter v).loa = s.loa ∧ (s.setArbiter v).lob = s.lob ∧
    (s.setArbiter v).rli = s.rli ∧ (s.setArbiter v).due = s.due ∧ (s.setArbiter v).mem = s.mem ∧
    (s.setArbiter v).pending = s.pending := by
  unfold State.setArbiter; (repeat' split) <;> simp

@[simp] theorem State.setPortEnable_frame (s : State) (n : Fin 4) (on : Bool) :
    (s.setPortEnable n on).msc = s.msc ∧ (s.setPortEnable n on).scs = s.scs ∧ (s.setPortEnable n on).ede = s.ede ∧
    (s.setPortEnable n on).dsh = s.dsh ∧ (s.setPortEnable n on).sce = s.sce ∧ (s.setPortEnable n on).tbp = s.tbp ∧
    (s.setPortEnable n on).loa = s.loa ∧ (s.setPortEnable n on).lob = s.lob ∧ (s.setPortEnable n on).rli = s.rli ∧
    (s.setPortEnable n on).due = s.due ∧ (s.setPortEnable n on).mem = s.mem ∧
    (s.setPortEnable n on).pending = s.pending := by
  unfold State.setPortEnable; simp

@[simp] theorem State.takeSettings_frame (s : State) (v : Settings) :
    (s.takeSettings v).msc = s.msc ∧ (s.takeSettings v).scs = s.scs ∧ (s.takeSettings v).rli = s.rli ∧
    (s.takeSettings v).mem = s.mem ∧ (s.takeSettings v).pending = s.pending := by
  unfold State.takeSettings; simp

@[simp] theorem State.stopPlayer_frame (s : State) :
    s.stopPlayer.scs = s.scs ∧ s.stopPlayer.ede = s.ede ∧ s.stopPlayer.dsh = s.dsh ∧ s.stopPlayer.sce = s.sce ∧
    s.stopPlayer.tbp = s.tbp ∧ s.stopPlayer.loa = s.loa ∧ s.stopPlayer.lob = s.lob ∧ s.stopPlayer.rli = s.rli ∧
    s.stopPlayer.due = s.due ∧ s.stopPlayer.mem = s.mem ∧ s.stopPlayer.pending = s.pending := by
  unfold State.stopPlayer; simp

@[simp] theorem State.modePorts_frame (s : State) (old new : Mode) :
    (s.modePorts old new).scs = s.scs ∧ (s.modePorts old new).ede = s.ede ∧ (s.modePorts old new).dsh = s.dsh ∧
    (s.modePorts old new).sce = s.sce ∧ (s.modePorts old new).tbp = s.tbp ∧ (s.modePorts old new).loa = s.loa ∧
    (s.modePorts old new).lob = s.lob ∧ (s.modePorts old new).rli = s.rli ∧ (s.modePorts old new).due = s.due ∧
    (s.modePorts old new).mem = s.mem ∧ (s.modePorts old new).pending = s.pending := by
  unfold State.modePorts; (repeat' split) <;> simp

@[simp] theorem State.modeRest_frame (s : State) (new : Mode) :
    (s.modeRest new).msc = s.msc ∧ (s.modeRest new).scs = s.scs ∧ (s.modeRest new).ede = s.ede ∧
    (s.modeRest new).ports = s.ports ∧ (s.modeRest new).dsh = s.dsh ∧ (s.modeRest new).aua = s.aua ∧
    (s.modeRest new).wst = s.wst ∧ (s.modeRest new).loa = s.loa ∧ (s.modeRest new).lob = s.lob ∧
    (s.modeRest new).cli = s.cli ∧ (s.modeRest new).rli = s.rli ∧ (s.modeRest new).due = s.due ∧
    (s.modeRest new).mem = s.mem ∧ (s.modeRest new).pending = s.pending := by
  unfold State.modeRest; (repeat' split) <;> simp

@[simp] theorem State.modeGrant_frame (s : State) (old new : Mode) :
    (s.modeGrant old new).msc = s.msc ∧ (s.modeGrant old new).scs = s.scs ∧ (s.modeGrant old new).ede = s.ede ∧
    (s.modeGrant old new).ports = s.ports ∧ (s.modeGrant old new).dsh = s.dsh ∧ (s.modeGrant old new).sce = s.sce ∧
    (s.modeGrant old new).tbp = s.tbp ∧ (s.modeGrant old new).loa = s.loa ∧ (s.modeGrant old new).lob = s.lob ∧
    (s.modeGrant old new).rli = s.rli ∧ (s.modeGrant old new).due = s.due ∧ (s.modeGrant old new).mem = s.mem ∧
    (s.modeGrant old new).pending = s.pending := by
  unfold State.modeGrant; (repeat' split) <;> simp

@[simp] theorem State.changeMode_frame (s : State) (m : Mode) :
    (s.changeMode m).scs = s.scs ∧ (s.changeMode m).dsh = s.dsh ∧ (s.changeMode m).loa = s.loa ∧
    (s.changeMode m).lob = s.lob ∧ (s.changeMode m).rli = s.rli ∧ (s.changeMode m).due = s.due ∧
    (s.changeMode m).mem = s.mem ∧ (s.changeMode m).pending = s.pending := by
  unfold State.changeMode; simp

@[simp] theorem State.takeDefaults_frame (s : State) :
    s.takeDefaults.scs = s.scs ∧ s.takeDefaults.rli = s.rli ∧ s.takeDefaults.mem = s.mem ∧
    s.takeDefaults.pending = s.pending := by
  unfold State.takeDefaults; simp

@[simp] theorem State.takeImage_frame (s : State) (i : List Word16) :
    (s.takeImage i).scs = s.scs ∧ (s.takeImage i).rli = s.rli ∧ (s.takeImage i).mem = s.mem ∧
    (s.takeImage i).pending = s.pending := by
  unfold State.takeImage; (repeat' split) <;> simp

@[simp] theorem State.leaveLoading_frame (s : State) :
    s.leaveLoading.scs = s.scs ∧ s.leaveLoading.dsh = s.dsh ∧ s.leaveLoading.loa = s.loa ∧
    s.leaveLoading.lob = s.lob ∧ s.leaveLoading.rli = s.rli ∧ s.leaveLoading.due = s.due ∧
    s.leaveLoading.mem = s.mem ∧ s.leaveLoading.pending = s.pending := by
  unfold State.leaveLoading; (repeat' split) <;> simp

/-! ### The player -/

@[simp] theorem State.present_frame (s : State) (e : PlayerEntry) :
    (s.present e).msc = s.msc ∧ (s.present e).scs = s.scs ∧ (s.present e).ede = s.ede ∧ (s.present e).dsh = s.dsh ∧
    (s.present e).sce = s.sce ∧ (s.present e).tbp = s.tbp ∧ (s.present e).loa = s.loa ∧ (s.present e).lob = s.lob ∧
    (s.present e).rli = s.rli ∧ (s.present e).due = s.due ∧ (s.present e).mem = s.mem ∧
    (s.present e).pending = s.pending := by
  unfold State.present; simp

@[simp] theorem State.playerTick_frame (s : State) :
    s.playerTick.scs = s.scs ∧ s.playerTick.ede = s.ede ∧ s.playerTick.dsh = s.dsh ∧ s.playerTick.sce = s.sce ∧
    s.playerTick.tbp = s.tbp ∧ s.playerTick.loa = s.loa ∧ s.playerTick.lob = s.lob ∧ s.playerTick.rli = s.rli ∧
    s.playerTick.due = s.due ∧ s.playerTick.mem = s.mem ∧ s.playerTick.pending = s.pending := by
  unfold State.playerTick; (repeat' split) <;> simp

@[simp] theorem State.haltPlayer_frame (s : State) :
    s.haltPlayer.scs = s.scs ∧ s.haltPlayer.ede = s.ede ∧ s.haltPlayer.dsh = s.dsh ∧ s.haltPlayer.sce = s.sce ∧
    s.haltPlayer.tbp = s.tbp ∧ s.haltPlayer.loa = s.loa ∧ s.haltPlayer.lob = s.lob ∧ s.haltPlayer.rli = s.rli ∧
    s.haltPlayer.due = s.due ∧ s.haltPlayer.mem = s.mem ∧ s.haltPlayer.pending = s.pending := by
  unfold State.haltPlayer; (repeat' split) <;> simp

@[simp] theorem State.startPlayer_frame (s : State) (l : Bool) :
    (s.startPlayer l).scs = s.scs ∧ (s.startPlayer l).ede = s.ede ∧ (s.startPlayer l).dsh = s.dsh ∧
    (s.startPlayer l).sce = s.sce ∧ (s.startPlayer l).tbp = s.tbp ∧ (s.startPlayer l).loa = s.loa ∧
    (s.startPlayer l).lob = s.lob ∧ (s.startPlayer l).rli = s.rli ∧ (s.startPlayer l).due = s.due ∧
    (s.startPlayer l).mem = s.mem ∧ (s.startPlayer l).pending = s.pending := by
  unfold State.startPlayer; simp

end Sys2Proof.Machine
end

