-- ==== Sys2Proof/Laws/Requests.lean ====
section
/-! SUPPORT. What executing a request comes to on a link that can take it (R173): the one lemma that gives the next state of a
request from what its owner does; and what a receiver makes of bytes that end no frame (R171). -/

namespace Sys2Proof.Machine

@[simp] theorem fits8_iff (n : Nat) : fits8 n = true ↔ n < 256 := by simp [fits8]
@[simp] theorem fits16_iff (n : Nat) : fits16 n = true ↔ n < 65536 := by simp [fits16]
@[simp] theorem fits24_iff (n : Nat) : fits24 n = true ↔ n < 16777216 := by simp [fits24]
@[simp] theorem fits32_iff (n : Nat) : fits32 n = true ↔ n < 4294967296 := by simp [fits32]
@[simp] theorem fitsCount_iff {α : Type} (l : List α) : fitsCount l = true ↔ l.length < 256 := by simp [fitsCount]

/-- The instants a command brings lie before the time reached. -/
def Instr.instantsPast (c : Instr) (now : Nat) : Prop :=
  ∀ l t n i v w, c = .parm l t n i v w → w ≤ now

theorem State.reach_past {s : State} {w : Nat} (h : w ≤ s.tbp.now) : s.reach w = s := by
  cases s; simp_all [State.reach]

/-- Every request command takes its request on its link. -/
theorem exec_request {c : Instr} {link : Link} {tag : Byte} {r : Request} {s : State}
    (h : c.request? = some (link, tag, r)) (hp : Instr.instantsPast c s.tbp.now) :
    exec c s = finish (s.takeRequest link tag r) := by
  cases c <;> simp only [Instr.request?, Option.some.injEq, Prod.mk.injEq, reduceCtorEq] at h <;>
    obtain ⟨rfl, rfl, rfl⟩ := h <;> try rfl
  next n i v w =>
    show finish ((s.reach w).takeRequest _ _ _) = _
    rw [State.reach_past (hp _ _ _ _ _ _ rfl)]

/-- On a free link a request is executed at once. -/
theorem State.takeRequest_free {s : State} {link : Link} (h : (s.link link).free = true) (tag : Byte) (r : Request) :
    s.takeRequest link tag r = s.deliver link tag r.mnem (some r) := by
  simp [State.takeRequest, h]

/-- A well-formed request that its link may send is handed to its owner outside LOADING. -/
theorem State.deliver_serve {s : State} {link : Link} {r : Request} (hm : s.msc.mode ≠ .loading)
    (hp : link = .rundown → rundownPermitted r.mnem = true) (hw : r.wellFormed = true) (tag : Byte) :
    s.deliver link tag r.mnem (some r) = State.answer link tag r.mnem.bytes (serve link tag r s) := by
  have h : ¬ (link = .rundown ∧ rundownPermitted r.mnem = false) := by
    rintro ⟨hl, hf⟩; rw [hp hl] at hf; cases hf
  simp [State.deliver, judge, hm, h, hw]

/-- A response on a link whose other link is as in a settled state. -/
theorem finish_respond {s u : State} {link : Link} {notices : List NoticeEntry} (hs : s.settled = true)
    (hl : u.link link = { s.link link with notices := notices })
    (ho : ∀ m, m ≠ link → u.link m = s.link m) (tag : Byte) (mnem : List Byte) (st : Status) :
    finish (u.respond link tag mnem st) = .next (u.setLink link (linkAfter (s.link link) notices ⟨tag, mnem, st⟩)) := by
  have hset := (State.settled_iff s).1 hs
  cases link
  · have hc : u.cli = { s.cli with notices := notices } := hl
    have hr : u.rli = s.rli := ho .rundown (by decide)
    simp [finish, State.settle, State.respond, State.setLink, State.link, hc, hr, hset.2, linkAfter]
  · have hr : u.rli = { s.rli with notices := notices } := hl
    have hc : u.cli = s.cli := ho .console (by decide)
    simp [finish, State.settle, State.respond, State.setLink, State.link, hc, hr, hset.1, linkAfter]

/-- A request answered in its event: the state its owner leaves, with the response on the link. -/
theorem exec_answered {c : Instr} {link : Link} {tag : Byte} {r : Request} {s u : State} {st : Status}
    {notices : List NoticeEntry} (hs : s.settled = true) (hr : s.linkReady link = true)
    (hc : c.request? = some (link, tag, r)) (hi : Instr.instantsPast c s.tbp.now)
    (hp : link = .rundown → rundownPermitted r.mnem = true) (hw : r.wellFormed = true)
    (hserve : serve link tag r s = (u, some st)) (hl : u.link link = { s.link link with notices := notices })
    (ho : ∀ m, m ≠ link → u.link m = s.link m) :
    exec c s = .next (u.setLink link (linkAfter (s.link link) notices ⟨tag, r.mnem.bytes, st⟩)) := by
  simp only [State.linkReady, Bool.and_eq_true, decide_eq_true_eq] at hr
  rw [exec_request hc hi, State.takeRequest_free hr.1, State.deliver_serve hr.2 hp hw, hserve]
  exact finish_respond hs hl ho _ _ _

/-- A request answered in its event by an owner that leaves both links alone. -/
theorem exec_answered_plain {c : Instr} {link : Link} {tag : Byte} {r : Request} {s u : State} {st : Status}
    (hs : s.settled = true) (hr : s.linkReady link = true)
    (hc : c.request? = some (link, tag, r)) (hi : Instr.instantsPast c s.tbp.now)
    (hp : link = .rundown → rundownPermitted r.mnem = true) (hw : r.wellFormed = true)
    (hserve : serve link tag r s = (u, some st)) (hcli : u.cli = s.cli) (hrli : u.rli = s.rli) :
    exec c s = .next (u.setLink link (answeredWith (s.link link) tag r.mnem st)) := by
  have hu : ∀ m, u.link m = s.link m := fun m => by cases m <;> assumption
  exact exec_answered hs hr hc hi hp hw hserve (by rw [hu]) (fun m _ => hu m)

/-- A request on the console link answered in its event. -/
theorem exec_console {c : Instr} {tag : Byte} {r : Request} {s u : State} {st : Status}
    {notices : List NoticeEntry} (hs : s.settled = true) (hr : s.consoleReady = true)
    (hc : c.request? = some (.console, tag, r)) (hi : Instr.instantsPast c s.tbp.now) (hw : r.wellFormed = true)
    (hserve : serve .console tag r s = (u, some st)) (hl : u.cli = { s.cli with notices := notices })
    (ho : u.rli = s.rli) :
    exec c s = .next { u with cli := linkAfter s.cli notices ⟨tag, r.mnem.bytes, st⟩ } :=
  exec_answered (link := .console) hs hr hc hi (by simp) hw hserve hl (fun m hm => by
    cases m
    · exact absurd rfl hm
    · exact ho)

/-- A request on the console link answered in its event by an owner that leaves both links alone. -/
theorem exec_console_plain {c : Instr} {tag : Byte} {r : Request} {s u : State} {st : Status}
    (hs : s.settled = true) (hr : s.consoleReady = true)
    (hc : c.request? = some (.console, tag, r)) (hi : Instr.instantsPast c s.tbp.now) (hw : r.wellFormed = true)
    (hserve : serve .console tag r s = (u, some st)) (hcli : u.cli = s.cli) (hrli : u.rli = s.rli) :
    exec c s = .next { u with cli := answeredWith s.cli tag r.mnem st } :=
  exec_console hs hr hc hi hw hserve (by rw [hcli]) hrli

/-- A request whose answer comes later: the state its owner leaves. -/
theorem exec_later {c : Instr} {link : Link} {tag : Byte} {r : Request} {s u : State}
    (hr : s.linkReady link = true) (hc : c.request? = some (link, tag, r)) (hi : Instr.instantsPast c s.tbp.now)
    (hp : link = .rundown → rundownPermitted r.mnem = true) (hw : r.wellFormed = true)
    (hserve : serve link tag r s = (u, none)) : exec c s = finish u := by
  simp only [State.linkReady, Bool.and_eq_true, decide_eq_true_eq] at hr
  rw [exec_request hc hi, State.takeRequest_free hr.1, State.deliver_serve hr.2 hp hw, hserve]
  rfl

/-! ### Receiving (R171) -/

theorem LinkIface.takeByte_dropped {l : LinkIface} (hr : l.receiver = .hunting) {b : Byte} (hb : b ≠ startMarker) :
    l.takeByte b = l := by
  simp [LinkIface.takeByte, receiveByte, hr, hb]
  cases l; simp_all

/-- Bytes that come while hunting, before a start marker, change nothing (R171). -/
theorem LinkIface.takeBytes_dropped {l : LinkIface} (hr : l.receiver = .hunting) {bytes : List Byte}
    (hb : ∀ b ∈ bytes, b ≠ startMarker) : bytes.foldl LinkIface.takeByte l = l := by
  induction bytes with
  | nil => rfl
  | cons b rest ih =>
    rw [List.foldl_cons, LinkIface.takeByte_dropped hr (hb b (by simp))]
    exact ih fun x hx => hb x (by simp [hx])

/-- The length field of bytes that hold it whole is that of any that follow on them. -/
theorem lengthField_append {bytes : List Byte} (h : 2 ≤ bytes.length) (more : List Byte) :
    lengthField (bytes ++ more) = lengthField bytes := by
  match bytes, h with
  | _ :: _ :: _, _ => rfl

/-- Bytes of a frame that is not yet whole, its length in range where it is known, are kept as they come (R171, R183). -/
theorem LinkIface.takeBytes_assembling {l : LinkIface} {prior bytes : List Byte} (hr : l.receiver = .assembling prior)
    (h : 2 ≤ (prior ++ bytes).length → 6 ≤ lengthField (prior ++ bytes) ∧ lengthField (prior ++ bytes) ≤ 1026 ∧
      (prior ++ bytes).length < lengthField (prior ++ bytes) + 4) :
    bytes.foldl LinkIface.takeByte l = { l with receiver := .assembling (prior ++ bytes) } := by
  induction bytes generalizing l prior with
  | nil => cases l; simp_all
  | cons b rest ih =>
    have hone : l.takeByte b = { l with receiver := .assembling (prior ++ [b]) } := by
      have hr' : receiveByte l.receiver b = .more (.assembling (prior ++ [b])) := by
        rw [hr]
        by_cases hs : (prior ++ [b]).length < 2
        · simp only [receiveByte, hs, if_true]
        · have e : prior ++ b :: rest = (prior ++ [b]) ++ rest := by simp
          have hl : lengthField (prior ++ b :: rest) = lengthField (prior ++ [b]) := by
            rw [e]; exact lengthField_append (by omega) rest
          have hlen : (prior ++ b :: rest).length = (prior ++ [b]).length + rest.length := by simp; omega
          rw [hl, hlen] at h
          have h3 := h (by omega)
          have h1 : ¬(lengthField (prior ++ [b]) < 6 ∨ 1026 < lengthField (prior ++ [b])) := by omega
          have h2 : (prior ++ [b]).length < lengthField (prior ++ [b]) + 4 := by omega
          simp only [receiveByte, hs, h1, h2, if_false, if_true]
      simp only [LinkIface.takeByte, hr']
    rw [List.foldl_cons, hone, ih rfl (by simpa using h)]
    simp

end Sys2Proof.Machine
end

