-- ==== Sys2Proof/Laws/Effects.lean ====
section
/-! SUPPORT. What the shared operations do to the blocks they change: staging triggers (R148), a change of holder (R62), the
grant rule (R56 to R61), the latches cleared (R87), the anchor (R22, R23), the page copied (R128), and the state that a link
is left in. -/

namespace Sys2Proof.Machine

theorem instantsPast_of_ne {c : Instr} {now : Nat} (h : ∀ l t n i v w, c ≠ .parm l t n i v w) : Instr.instantsPast c now :=
  fun l t n i v w e => absurd e (h l t n i v w)

/-! ### Staging triggers -/

@[simp] theorem State.trigger_buffer (s : State) : s.trigger.wst.buffer.isSome = true := by
  unfold State.trigger
  split
  · rfl
  · next h => simp [h]

@[simp] theorem State.trigger_rows (s : State) : s.trigger.wst.rows = s.wst.rows := by
  unfold State.trigger; split <;> rfl

@[simp] theorem State.trigger_eyeRow (s : State) : s.trigger.wst.eyeRow = s.wst.eyeRow := by
  unfold State.trigger; split <;> rfl

@[simp] theorem State.trigger_latest (s : State) : s.trigger.wst.latest = s.wst.latest := by
  unfold State.trigger; split <;> rfl

@[simp] theorem State.trigger_sequence (s : State) : s.trigger.wst.sequence = s.wst.sequence := by
  unfold State.trigger; split <;> rfl

/-- A trigger at the end of an event that left the stager alone is one publication: a staging with the snapshot of the state it
leaves, or restage-pending (R148, R149). -/
theorem State.trigger_published {s u : State} (h : u.wst = s.wst) : Published s u.trigger := by
  refine ⟨fun hb => ?_, fun hb => ?_⟩
  · simp [State.trigger, State.snapshot, State.anchorOrdinal, h, hb]
  · obtain ⟨f, hf⟩ := Option.ne_none_iff_exists'.1 hb
    simp [State.trigger, h, hf]

/-- A publication is a restaging of one trigger. -/
theorem Published.restaged {s t : State} (h : Published s t) : Restaged s t := by
  refine ⟨fun hb => ?_, h.2⟩
  rw [h.1 hb]

theorem State.publishSince_same {s : State} {e : ScrollEngine} (ha : s.sce.anchor = e.anchor)
    (hf : s.sce.fraction = e.fraction) (hs : s.sce.state = e.state) : s.publishSince e = s := by
  simp [State.publishSince, ha, hf, hs]

theorem State.publishSince_changed {s : State} {e : ScrollEngine}
    (h : ¬(s.sce.anchor = e.anchor ∧ s.sce.fraction = e.fraction ∧ s.sce.state = e.state)) :
    s.publishSince e = s.trigger := by
  simp [State.publishSince, h]

theorem State.publishSince_buffer {s : State} (e : ScrollEngine) (h : s.wst.buffer.isSome = true) :
    (s.publishSince e).wst.buffer.isSome = true := by
  unfold State.publishSince; split <;> simp [h]

/-! ### A change of holder -/

@[simp] theorem State.takeGrant_aua (s : State) (g : Grant) :
    (s.takeGrant g).aua = { s.aua with holder := g.holder, inHoldOver := g.inHoldOver, count := g.count } := by
  unfold State.takeGrant; dsimp only; split <;> simp

@[simp] theorem State.takeGrant_cli (s : State) (g : Grant) :
    (s.takeGrant g).cli = { s.cli with notices := s.tallyNotices g.holder } := by
  unfold State.takeGrant State.tallyNotices; dsimp only; split <;> simp

theorem State.takeGrant_keeps {s : State} {g : Grant} (h : g.holder = s.aua.holder) : (s.takeGrant g).wst = s.wst := by
  simp [State.takeGrant, h]

theorem State.takeGrant_changes {s : State} {g : Grant} (h : g.holder ≠ s.aua.holder) :
    (s.takeGrant g).wst.buffer.isSome = true := by
  simp [State.takeGrant, h]

/-- Taking a grant changes nothing of the arbiter but the grant. -/
theorem State.takeGrant_only (s : State) (g : Grant) : GrantOnly s (s.takeGrant g) := by
  simp [GrantOnly]

/-- A change of holder publishes, with the new holder in the snapshot (R48). -/
theorem State.takeGrant_published {s : State} {g : Grant} (h : g.holder ≠ s.aua.holder) :
    Published s (s.takeGrant g) := by
  rw [State.takeGrant]
  dsimp only
  rw [if_neg h]
  exact State.trigger_published rfl

/-- The grant rule re-evaluated: only the grant may differ, and the stager is triggered exactly where the holder does (R48,
R55, R62). -/
theorem State.regrant_published (s : State) : GrantOnly s s.regrant ∧
    (s.regrant.aua.holder = s.aua.holder → s.regrant.wst = s.wst) ∧
    (s.regrant.aua.holder ≠ s.aua.holder → Published s s.regrant) := by
  refine ⟨s.takeGrant_only _, fun h => ?_, fun h => ?_⟩
  · exact State.takeGrant_keeps (by simpa [State.regrant] using h)
  · exact State.takeGrant_published (by simpa [State.regrant] using h)

@[simp] theorem State.regrant_aua (s : State) : s.regrant.aua =
    { s.aua with holder := s.grant.holder, inHoldOver := s.grant.inHoldOver, count := s.grant.count } :=
  State.takeGrant_aua s s.grant

@[simp] theorem State.regrant_cli (s : State) :
    s.regrant.cli = { s.cli with notices := s.tallyNotices s.grant.holder } :=
  State.takeGrant_cli s s.grant

theorem State.regrant_keeps {s : State} (h : s.grant.holder = s.aua.holder) : s.regrant.wst = s.wst :=
  State.takeGrant_keeps h

theorem State.regrant_changes {s : State} (h : s.grant.holder ≠ s.aua.holder) : s.regrant.wst.buffer.isSome = true :=
  State.takeGrant_changes h

/-! ### Bad frames (R76, R81) -/

/-- What a bad frame makes of a port. -/
theorem HandPort.badFrame_eq (p : HandPort) : p.badFrame = p.afterBadFrame := by
  by_cases h : p.badRun < 7
  · have h8 : min (p.badRun + 1) 8 ≠ 8 := by omega
    simp [HandPort.badFrame, HandPort.afterBadFrame, Config.badRunMax, h, h8]
  · have h8 : min (p.badRun + 1) 8 = 8 := by omega
    cases hs : p.state <;> simp [HandPort.badFrame, HandPort.afterBadFrame, HandPort.left, Config.badRunMax, h, h8, hs]

/-! ### An accepted commit (R126, R128) -/

theorem State.startCopy_of_pos {n : Nat} (h : 0 < n) (s : State) (l : Link) (tag : Byte) (e : EditParams) (page : Page)
    (st : Store) (lids : List Nat) : s.startCopy l tag e n page st lids = s.acceptCommit l tag e n page st lids := by
  simp [State.startCopy, Nat.pos_iff_ne_zero.1 h]

@[simp] theorem State.startCopy_zero (s : State) (l : Link) (tag : Byte) (e : EditParams) (page : Page) (st : Store)
    (lids : List Nat) : s.startCopy l tag e 0 page st lids =
      (s.acceptCommit l tag e 0 page st lids).copyDone l page (newEntry l tag e lids) := rfl

@[simp] theorem State.acceptCommit_slot (s : State) (l : Link) (tag : Byte) (e : EditParams) (n : Nat) (page : Page)
    (st : Store) (lids : List Nat) : (s.acceptCommit l tag e n page st lids).slot l = .copying e n page := by
  cases l <;> rfl

@[simp] theorem State.acceptCommit_queue (s : State) (l : Link) (tag : Byte) (e : EditParams) (n : Nat) (page : Page)
    (st : Store) (lids : List Nat) :
    (s.acceptCommit l tag e n page st lids).ede.queue = s.ede.queue ++ [newEntry l tag e lids] := by
  cases l <;> rfl

/-! ### The choice among candidates (R57) -/

theorem mem_allSources (src : Source) : src ∈ allSources := by
  rcases src with _ | n | _
  · simp [allSources]
  · fin_cases n <;> simp [allSources]
  · simp [allSources]

/-- `b` is the best candidate of a list in number order. -/
def State.BestOf (s : State) (floor : Nat) (l : List Source) : Option Source → Prop
  | none => ∀ x ∈ l, s.candidate floor x = false
  | some b => b ∈ l ∧ s.candidate floor b = true ∧ ∀ x ∈ l, s.candidate floor x = true →
      (s.aua.entry x).priority < (s.aua.entry b).priority ∨
        ((s.aua.entry x).priority = (s.aua.entry b).priority ∧ b.number ≤ x.number)

theorem State.better_bestOf {s : State} {floor : Nat} {l : List Source} {o : Option Source} {src : Source}
    (h : s.BestOf floor l o) (hl : ∀ x ∈ l, x.number < src.number) :
    s.BestOf floor (l ++ [src]) (s.better floor o src) := by
  unfold State.better
  by_cases hc : s.candidate floor src = true
  · rw [if_pos hc]
    cases o with
    | none =>
      refine ⟨by simp, hc, fun x hx hcx => ?_⟩
      rcases List.mem_append.1 hx with hx | hx
      · exact absurd (h x hx) (by simp [hcx])
      · simp at hx; subst hx; exact .inr ⟨rfl, le_rfl⟩
    | some b =>
      obtain ⟨hb, hcb, hmax⟩ := h
      show State.BestOf s floor _ (if _ then _ else _)
      split
      · next hlt =>
        refine ⟨by simp, hc, fun x hx hcx => ?_⟩
        rcases List.mem_append.1 hx with hx | hx
        · left; rcases hmax x hx hcx with h1 | h1 <;> omega
        · simp at hx; subst hx; exact .inr ⟨rfl, le_rfl⟩
      · next hge =>
        refine ⟨List.mem_append_left _ hb, hcb, fun x hx hcx => ?_⟩
        rcases List.mem_append.1 hx with hx | hx
        · exact hmax x hx hcx
        · simp at hx; subst hx; have := hl b hb; omega
  · rw [if_neg hc]
    cases o with
    | none =>
      intro x hx
      rcases List.mem_append.1 hx with hx | hx
      · exact h x hx
      · simp at hx; subst hx; simpa using hc
    | some b =>
      obtain ⟨hb, hcb, hmax⟩ := h
      refine ⟨List.mem_append_left _ hb, hcb, fun x hx hcx => ?_⟩
      rcases List.mem_append.1 hx with hx | hx
      · exact hmax x hx hcx
      · simp at hx; subst hx; exact absurd hcx hc

/-- The best candidate: highest priority, on equal priority the lowest number (R57). -/
theorem State.best_bestOf (s : State) (floor : Nat) : s.BestOf floor allSources (s.best floor) := by
  have h0 : s.BestOf floor [] none := by simp [State.BestOf]
  have h1 := State.better_bestOf (src := .console) h0 (by simp)
  have h2 := State.better_bestOf (src := .hand 0) h1 (by simp [Source.number])
  have h3 := State.better_bestOf (src := .hand 1) h2 (by simp [Source.number])
  have h4 := State.better_bestOf (src := .hand 2) h3 (by simp [Source.number])
  have h5 := State.better_bestOf (src := .hand 3) h4 (by simp [Source.number])
  exact State.better_bestOf (src := .auto) h5 (by simp [Source.number])

theorem State.best_none {s : State} {floor : Nat} (h : s.best floor = none) (src : Source) :
    s.candidate floor src = false := by
  have := s.best_bestOf floor
  rw [h] at this
  exact this src (mem_allSources src)

theorem State.best_some {s : State} {floor : Nat} {b : Source} (h : s.best floor = some b) :
    s.candidate floor b = true := by
  have := s.best_bestOf floor
  rw [h] at this
  exact this.2.1

theorem State.candidate_eligible {s : State} {floor : Nat} {src : Source} (h : s.candidate floor src = true) :
    s.eligible src = true ∧ s.active src = true ∧ floor ≤ (s.aua.entry src).priority := by
  simpa [State.candidate, and_assoc] using h

/-- Above the best candidate's priority there is no candidate (R57). -/
theorem State.best_above {s : State} {floor : Nat} {b : Source} (h : s.best floor = some b) :
    s.best ((s.aua.entry b).priority + 1) = none := by
  cases hc : s.best ((s.aua.entry b).priority + 1) with
  | none => rfl
  | some c =>
    obtain ⟨he, ha, hp⟩ := State.candidate_eligible (State.best_some hc)
    have hb := State.candidate_eligible (State.best_some h)
    have hcand : s.candidate floor c = true := by simp [State.candidate, he, ha]; omega
    have := s.best_bestOf floor
    rw [h] at this
    have := this.2.2 c (mem_allSources c) hcand
    omega

/-! ### The grant rule -/

theorem State.grant_suspended {s : State} (h : s.msc.mode.suspended = true) : s.grant = Grant.plain none := by
  simp [State.grant, h]

theorem State.grant_locked {s : State} {l : Source} (h : s.msc.mode.suspended = false) (hl : s.aua.lock = some l) :
    s.grant = Grant.plain (some l) := by
  simp [State.grant, h, hl]

/-- What the grant rule gives outside SETUP and LOADING with no lock in force (R57 to R61). -/
theorem State.grant_unlocked {s : State} (h : s.msc.mode.suspended = false) (hl : s.aua.lock = none) :
    (s.grant = Grant.plain none) ∨
    (∃ b, s.eligible b = true ∧ s.active b = true ∧ s.grant = Grant.plain (some b)) ∨
    (∃ b, s.aua.holder = some b ∧ s.eligible b = true ∧ s.active b = false ∧
      s.grant = ⟨some b, true, if s.aua.inHoldOver then s.aua.count else s.aua.holdOverValue⟩) := by
  have hbest : ∀ floor, s.best floor = none ∨
      ∃ b, s.best floor = some b ∧ s.eligible b = true ∧ s.active b = true := by
    intro floor
    cases hb : s.best floor with
    | none => exact .inl rfl
    | some b => exact .inr ⟨b, rfl, (candidate_eligible (best_some hb)).1, (candidate_eligible (best_some hb)).2.1⟩
  have hfree : Grant.plain (s.best 0) = Grant.plain none ∨
      ∃ b, s.eligible b = true ∧ s.active b = true ∧ Grant.plain (s.best 0) = Grant.plain (some b) := by
    rcases hbest 0 with hb | ⟨b, hb, h1, h2⟩ <;> rw [hb]
    · exact .inl rfl
    · exact .inr ⟨b, h1, h2, rfl⟩
  cases hh : s.aua.holder with
  | none =>
    rw [show s.grant = Grant.plain (s.best 0) by simp [State.grant, h, hl, hh]]
    exact hfree.imp_right .inl
  | some b =>
    by_cases he : s.eligible b = true
    · by_cases ha : s.active b = true
      · rw [show s.grant = s.grantActive b by simp [State.grant, h, hl, hh, he, ha]]
        rcases hbest ((s.aua.entry b).priority + 1) with hb | ⟨c, hb, h1, h2⟩
        · exact .inr (.inl ⟨b, he, ha, by simp [State.grantActive, hb]⟩)
        · exact .inr (.inl ⟨c, h1, h2, by simp [State.grantActive, hb]⟩)
      · rw [show s.grant = s.grantInactive b by simp [State.grant, h, hl, hh, he, ha]]
        rcases hbest (s.aua.entry b).priority with hb | ⟨c, hb, h1, h2⟩
        · exact .inr (.inr ⟨b, rfl, he, by simpa using ha, by simp [State.grantInactive, hb]⟩)
        · exact .inr (.inl ⟨c, h1, h2, by simp [State.grantInactive, hb]⟩)
    · rw [show s.grant = Grant.plain (s.best 0) by simp [State.grant, h, hl, hh, he]]
      exact hfree.imp_right .inl

/-- What eligibility looks at (R53). -/
theorem State.eligible_congr {s t : State} (hm : t.msc.mode = s.msc.mode) (hp : t.ports = s.ports)
    (ht : t.aua.threshold = s.aua.threshold) {src : Source} (he : t.aua.entry src = s.aua.entry src) :
    t.eligible src = s.eligible src := by
  unfold State.eligible State.portCounts State.port
  rw [he, ht, hp, hm]

/-- What activity looks at (R54). -/
theorem State.active_congr {s t : State} (hv : t.sce.manualSpeed = s.sce.manualSpeed) (hp : t.ports = s.ports)
    (ha : t.tbp.autoMode = s.tbp.autoMode) (src : Source) : t.active src = s.active src := by
  unfold State.active State.port
  rw [hv, hp, ha]

/-- What the grant rule looks at (R53 to R61). -/
theorem State.grant_congr {s t : State} (hm : t.msc.mode = s.msc.mode) (hp : t.ports = s.ports)
    (hv : t.sce.manualSpeed = s.sce.manualSpeed) (hc : t.tbp.autoMode = s.tbp.autoMode) (ha : t.aua = s.aua) :
    t.grant = s.grant := by
  have he : t.eligible = s.eligible := funext fun src => State.eligible_congr hm hp (by rw [ha]) (by rw [ha])
  have hx : t.active = s.active := funext fun src => State.active_congr hv hp hc src
  have hb : t.best = s.best := by
    funext floor
    unfold State.best State.better State.candidate
    rw [he, hx, ha]
  unfold State.grant State.grantActive State.grantInactive
  rw [hm, ha, he, hx, hb]

/-- An event whose grant comes from a re-evaluation of `u`, which holds the inputs the event leaves and the grant as it stood,
has re-evaluated the grant. -/
theorem State.regrant_reevaluated {s t u : State} (ht : t.aua = u.regrant.aua) (hm : t.msc.mode = u.msc.mode)
    (hp : t.ports = u.ports) (hv : t.sce.manualSpeed = u.sce.manualSpeed) (hc : t.tbp.autoMode = u.tbp.autoMode)
    (hs : u.aua = { u.aua with holder := s.aua.holder, inHoldOver := s.aua.inHoldOver, count := s.aua.count }) :
    Reevaluated s t := by
  have hw : { t.aua with holder := s.aua.holder, inHoldOver := s.aua.inHoldOver, count := s.aua.count } = u.aua := by
    rw [ht, State.regrant_aua]
    exact hs.symm
  have hg : State.grant { t with aua := u.aua } = u.grant := State.grant_congr hm hp hv hc rfl
  unfold Reevaluated
  rw [hw, State.regrant_aua, hg, ht, State.regrant_aua]

/-- Eligibility and activity do not look at who holds. -/
theorem State.takeGrant_eligible (s : State) (g : Grant) (src : Source) :
    (s.takeGrant g).eligible src = s.eligible src :=
  State.eligible_congr (by simp) (by simp) (by simp) (by cases src <;> simp [Arbiter.entry])

theorem State.takeGrant_active (s : State) (g : Grant) (src : Source) : (s.takeGrant g).active src = s.active src :=
  State.active_congr (by simp) (by simp) (by simp) src

/-- After a re-evaluation the arbiter agrees with its inputs, whatever it held before (R55). -/
theorem State.regrant_authorityOk (s : State) : s.regrant.authorityOk = true := by
  unfold State.authorityOk
  by_cases hsus : s.msc.mode.suspended = true
  · simp [hsus, State.grant_suspended hsus, Grant.plain]
  · replace hsus : s.msc.mode.suspended = false := by simpa using hsus
    cases hl : s.aua.lock with
    | some l => simp [hsus, hl, State.grant_locked hsus hl, Grant.plain]
    | none =>
      have he : ∀ src, s.regrant.eligible src = s.eligible src := State.takeGrant_eligible s _
      have ha : ∀ src, s.regrant.active src = s.active src := State.takeGrant_active s _
      rcases State.grant_unlocked hsus hl with hg | ⟨b, h1, h2, hg⟩ | ⟨b, -, h1, h2, hg⟩ <;>
        simp_all [State.unlockedOk, Grant.plain]

/-- The best candidate looks at entries, threshold and inputs, not at who holds. -/
theorem State.takeGrant_best (s : State) (g : Grant) : (s.takeGrant g).best = s.best := by
  have he : (s.takeGrant g).eligible = s.eligible := funext (s.takeGrant_eligible g)
  have ha : (s.takeGrant g).active = s.active := funext (s.takeGrant_active g)
  have hn : (s.takeGrant g).aua.entry = s.aua.entry := by funext src; cases src <;> simp [Arbiter.entry]
  funext floor
  unfold State.best State.better State.candidate
  rw [he, ha, hn]

/-- A re-evaluation that finds a best candidate finds the same grant again. -/
theorem State.regrant_grant_best {s : State} {b : Source} {floor : Nat} (hsus : s.msc.mode.suspended = false)
    (hl : s.aua.lock = none) (hb : s.best floor = some b) (hg : s.grant = Grant.plain (some b)) :
    s.regrant.grant = s.grant := by
  obtain ⟨h1, h2, -⟩ := State.candidate_eligible (State.best_some hb)
  have hn : s.regrant.aua.entry b = s.aua.entry b := by cases b <;> simp [Arbiter.entry]
  have he : s.regrant.eligible b = true := by rw [State.regrant, State.takeGrant_eligible, h1]
  have ha : s.regrant.active b = true := by rw [State.regrant, State.takeGrant_active, h2]
  have hx : s.regrant.best ((s.aua.entry b).priority + 1) = none := by
    rw [State.regrant, State.takeGrant_best, State.best_above hb]
  have hk : s.regrant.grantActive b = Grant.plain (some b) := by simp only [State.grantActive, hn, hx]
  rw [hg, State.grant, if_neg (by simp [hsus])]
  simp [hl, hg, Grant.plain, he, ha, hk]

/-- Re-evaluating twice gives what re-evaluating once does (R55). -/
theorem State.regrant_grant (s : State) : s.regrant.grant = s.grant := by
  by_cases hsus : s.msc.mode.suspended = true
  · rw [State.grant_suspended hsus, State.grant_suspended (by simpa using hsus)]
  replace hsus : s.msc.mode.suspended = false := by simpa using hsus
  cases hl : s.aua.lock with
  | some l => rw [State.grant_locked hsus hl, State.grant_locked (by simpa using hsus) (l := l) (by simpa using hl)]
  | none =>
    have hbest : s.regrant.best = s.best := s.takeGrant_best _
    have free : s.grant = Grant.plain (s.best 0) → s.regrant.grant = s.grant := fun hg => by
      cases hb : s.best 0 with
      | some b => exact State.regrant_grant_best hsus hl hb (by rw [hg, hb])
      | none =>
        rw [hg, State.grant, if_neg (by simp [hsus])]
        simp [hl, hg, hb, hbest, Grant.plain]
    cases hh : s.aua.holder with
    | none => exact free (by simp [State.grant, hsus, hl, hh])
    | some h =>
      by_cases he : s.eligible h = true
      · have he' : s.regrant.eligible h = true := by rw [State.regrant, State.takeGrant_eligible, he]
        have hn : s.regrant.aua.entry h = s.aua.entry h := by cases h <;> simp [Arbiter.entry]
        by_cases ha : s.active h = true
        · have ha' : s.regrant.active h = true := by rw [State.regrant, State.takeGrant_active, ha]
          cases hb : s.best ((s.aua.entry h).priority + 1) with
          | some x =>
            exact State.regrant_grant_best hsus hl hb
              (by simp [State.grant, State.grantActive, hsus, hl, hh, he, ha, hb])
          | none =>
            have hg : s.grant = Grant.plain (some h) := by
              simp [State.grant, State.grantActive, hsus, hl, hh, he, ha, hb]
            have hk : s.regrant.grantActive h = Grant.plain (some h) := by simp only [State.grantActive, hn, hbest, hb]
            rw [hg, State.grant, if_neg (by simp [hsus])]
            simp [hl, hg, Grant.plain, he', ha', hk]
        · have ha' : ¬s.regrant.active h = true := by rw [State.regrant, State.takeGrant_active]; exact ha
          cases hb : s.best (s.aua.entry h).priority with
          | some x =>
            exact State.regrant_grant_best hsus hl hb
              (by simp [State.grant, State.grantInactive, hsus, hl, hh, he, ha, hb])
          | none =>
            have hg : s.grant = ⟨some h, true, if s.aua.inHoldOver then s.aua.count else s.aua.holdOverValue⟩ := by
              simp [State.grant, State.grantInactive, hsus, hl, hh, he, ha, hb]
            have hk : s.regrant.grantInactive h = s.grant := by
              simp only [State.grantInactive, hn, hbest, hb]
              simp [hg]
            rw [hg] at hk
            rw [hg, State.grant, if_neg (by simp [hsus])]
            simp [hl, hg, he', ha', hk]
      · exact free (by simp [State.grant, hsus, hl, hh, he])

/-! ### Latches cleared (R87) -/

/-- The stop's one report: the grant stands where no port's inputs change, and is re-evaluated where one's do (R87). -/
theorem State.clearLatches_cases (s : State) :
    (s.clearLatches = { s with ports := s.ports.map HandPort.cleared } ∧
      ∀ n, ((s.port n).cleared).inputs = (s.port n).inputs) ∨
    (s.clearLatches = { s with ports := s.ports.map HandPort.cleared }.regrant ∧
      ∃ n, ((s.port n).cleared).inputs ≠ (s.port n).inputs) := by
  have h : portInputs (s.ports.map HandPort.cleared) = portInputs s.ports ↔
      ∀ n, ((s.port n).cleared).inputs = (s.port n).inputs := by
    refine ⟨fun h n => ?_, fun h => ?_⟩
    · have := congrArg (Four.get · n) h
      simpa [portInputs, State.port] using this
    · have h0 := h 0; have h1 := h 1; have h2 := h 2; have h3 := h 3
      simp_all [portInputs, State.port, Four.map, Four.get]
  unfold State.clearLatches
  by_cases hi : portInputs (s.ports.map HandPort.cleared) = portInputs s.ports
  · exact .inl ⟨by simp [hi], h.1 hi⟩
  · refine .inr ⟨by simp [hi], ?_⟩
    by_contra hc
    exact hi (h.2 fun n => by_contra fun hn => hc ⟨n, hn⟩)

/-! ### The anchor (R22, R23) -/

/-- Following the current story changes no other field of the engine. -/
theorem State.followStory_sce (s : State) : ∃ c, s.followStory.sce = { s.sce with currentStory := c } := by
  unfold State.followStory
  split
  · exact ⟨none, rfl⟩
  · split
    · exact ⟨s.sce.currentStory, rfl⟩
    · next story _ _ => exact ⟨some story, rfl⟩

/-- A move of the anchor sets anchor and fraction, and changes nothing else of the engine but the current story. -/
theorem State.moveAnchor_sce (s : State) (a : Option Nat) (f : Nat) :
    ∃ c, (s.moveAnchor a f).sce = { s.sce with anchor := a, fraction := f, currentStory := c } := by
  unfold State.moveAnchor
  dsimp only
  split
  · exact ⟨s.sce.currentStory, rfl⟩
  · obtain ⟨c, hc⟩ := State.followStory_sce { s with sce := { s.sce with anchor := a, fraction := f } }
    exact ⟨c, by simp [hc]⟩

/-- A move of the anchor makes at most one pass due, and changes nothing else of the edit engine. -/
theorem State.moveAnchor_ede (s : State) (a : Option Nat) (f : Nat) :
    (s.moveAnchor a f).ede = { s.ede with passesDue := s.ede.passesDue + if a = s.sce.anchor then 0 else 1 } := by
  unfold State.moveAnchor
  dsimp only
  split <;> simp

/-- A move of the anchor raises at most STORY_AT_EYE. -/
theorem State.moveAnchor_cli (s : State) (a : Option Nat) (f : Nat) :
    (s.moveAnchor a f).cli = s.cli ∨
      ∃ n, (s.moveAnchor a f).cli = { s.cli with notices := raiseIn s.cli.notices .storyAtEye (.value n) } := by
  unfold State.moveAnchor
  dsimp only
  split
  · exact .inl rfl
  · unfold State.followStory
    split
    · exact .inl rfl
    · split
      · exact .inl rfl
      · next story _ _ => exact .inr ⟨story, rfl⟩

/-! ### Reservation (R3) and copy (R128) -/

/-- Writing a page changes the content of the lines reserved for it, each in its place, and nothing else (R2, R128). -/
theorem Store.writePage_pool (st : Store) (lids : List Nat) (page : Page) (i : Nat) :
    (st.writePage lids page).pool[i]? = st.pool[i]?.map fun l =>
      match lids.idxOf? l.lid with
      | some k => { l with content := page.getD k none }
      | none => l :=
  List.getElem?_map


theorem Store.reserve_ok {st u : Store} {n : Nat} {lids : List Nat} (h : st.reserve n = .ok (u, lids)) :
    n ≤ st.free ∧ st.nextLid + n - 1 ≤ Config.lidMax ∧ lids = (List.range n).map (st.nextLid + ·) ∧
      u = { st with pool := st.pool ++ lids.map (fun l => ⟨l, none, none⟩), nextLid := st.nextLid + n } := by
  unfold Store.reserve at h
  split at h
  · cases h
  split at h
  · cases h
  · next h1 h2 =>
    simp only [Except.ok.injEq, Prod.mk.injEq] at h
    obtain ⟨rfl, rfl⟩ := h
    exact ⟨by omega, by omega, rfl, rfl⟩

end Sys2Proof.Machine
end

