-- ==== Sys2Proof/Laws/Memory.lean ====
section
/-! SUPPORT. The settings memory: every write keeps the canonical form, a read after a write to the same byte gives the byte
written, and a write leaves every other byte alone. -/

namespace Sys2Proof.Machine

/-! ### Canonical form -/

theorem memWf_cons (c : Host.Cell) (m : List Host.Cell) :
    memWf (c :: m) = true ↔ c.2 ≠ Config.blankByte ∧ (∀ d ∈ m.head?, c.1 < d.1) ∧ memWf m = true := by
  cases m with
  | nil => simp [memWf]
  | cons d rest => simp [memWf, and_assoc]

/-- The first entry after a write is the byte written or the first entry as it was. -/
theorem memWrite_head (m : List Host.Cell) (a : Nat) (b : Byte) (lo : Nat) (ha : lo < a)
    (hm : ∀ d ∈ m.head?, lo < d.1) (hw : memWf m = true) : ∀ d ∈ (memWrite m a b).head?, lo < d.1 := by
  cases m with
  | nil => unfold memWrite; split <;> simp [ha]
  | cons c rest =>
    have hc : lo < c.1 := hm c rfl
    have hrest := (memWf_cons c rest).1 hw
    unfold memWrite
    split
    · simp [hc]
    split
    · split
      · intro d hd
        exact hc.trans (hrest.2.1 d hd)
      · simp [ha]
    split <;> simp [ha, hc]

/-- A write keeps the canonical form. -/
theorem memWrite_wf (m : List Host.Cell) (a : Nat) (b : Byte) (hw : memWf m = true) :
    memWf (memWrite m a b) = true := by
  induction m with
  | nil => unfold memWrite; split <;> simp_all [memWf]
  | cons c rest ih =>
    obtain ⟨hc, hhead, hrest⟩ := (memWf_cons c rest).1 hw
    unfold memWrite
    split
    · next hlt => exact (memWf_cons _ _).2 ⟨hc, memWrite_head rest a b c.1 hlt hhead hrest, ih hrest⟩
    next hge =>
    split
    · next heq =>
      split
      · exact hrest
      · next hb => exact (memWf_cons _ _).2 ⟨hb, fun d hd => heq ▸ hhead d hd, hrest⟩
    next hne =>
    split
    · exact hw
    · next hb => exact (memWf_cons _ _).2 ⟨hb, fun d hd => by simp at hd; subst hd; simp; omega, hw⟩

theorem memWriteWord_wf (m : List Host.Cell) (i : Nat) (w : Word16) (hw : memWf m = true) :
    memWf (memWriteWord m i w) = true :=
  memWrite_wf _ _ _ (memWrite_wf _ _ _ hw)

theorem memWriteWords_wf (m : List Host.Cell) (i : Nat) (ws : List Word16) (hw : memWf m = true) :
    memWf (memWriteWords m i ws) = true := by
  induction ws generalizing m i with
  | nil => exact hw
  | cons w rest ih => exact ih _ _ (memWriteWord_wf m i w hw)

theorem foldl_memWriteWord_wf (writes : List (Nat × Word16)) (m : List Host.Cell) (hw : memWf m = true) :
    memWf (writes.foldl (fun m w => memWriteWord m w.1 w.2) m) = true := by
  induction writes generalizing m with
  | nil => exact hw
  | cons w rest ih => exact ih _ (memWriteWord_wf m w.1 w.2 hw)

theorem memAfterWrites_wf (m : List Host.Cell) (fields : List Word16) (n : Nat) (hw : memWf m = true) :
    memWf (memAfterWrites m fields n) = true :=
  foldl_memWriteWord_wf _ _ hw

theorem memAfterBadReadBack_wf (m : List Host.Cell) (fields readBack : List Word16) (hw : memWf m = true) :
    memWf (memAfterBadReadBack m fields readBack) = true :=
  memWriteWords_wf _ _ _ (memAfterWrites_wf _ _ _ hw)

theorem memoryAtLoad_wf (m : List Host.Cell) (image : Option (List Word16)) (hw : memWf m = true) :
    memWf (memoryAtLoad m image) = true := by
  cases image with
  | none => exact hw
  | some ws => exact memWriteWords_wf _ _ _ hw

theorem State.memAtReset_wf (s : State) (n : Nat) (hw : s.memoryOk = true) : memWf (s.memAtReset n) = true := by
  unfold State.memAtReset
  split
  · exact memAfterWrites_wf _ _ _ hw
  · exact hw

/-- The memory of State.reset is in canonical form. -/
theorem reset_memoryOk : State.reset.memoryOk = true := rfl

/-! ### Reading after writing -/

theorem memRead_cons (c : Host.Cell) (m : List Host.Cell) (a : Nat) :
    memRead (c :: m) a = if c.1 = a then c.2 else memRead m a := by
  unfold memRead
  by_cases h : c.1 = a <;> simp [h]

/-- A write leaves every other byte alone. -/
theorem memRead_memWrite_other (m : List Host.Cell) {a x : Nat} (b : Byte) (h : x ≠ a) :
    memRead (memWrite m a b) x = memRead m x := by
  have ha : ¬ a = x := fun e => h e.symm
  induction m with
  | nil => unfold memWrite; split <;> simp [memRead_cons, ha]
  | cons c rest ih =>
    unfold memWrite
    split
    · simp [memRead_cons, ih]
    split
    · next heq => split <;> simp [memRead_cons, heq, ha]
    split <;> simp [memRead_cons, ha]

/-- An address below every entry reads as an unlisted one. -/
theorem memRead_below (m : List Host.Cell) (a : Nat) (hw : memWf m = true) (h : ∀ d ∈ m.head?, a < d.1) :
    memRead m a = Config.blankByte := by
  induction m with
  | nil => rfl
  | cons c rest ih =>
    obtain ⟨-, hhead, hrest⟩ := (memWf_cons c rest).1 hw
    have hc : a < c.1 := h c rfl
    rw [memRead_cons, if_neg (by omega)]
    exact ih hrest fun d hd => hc.trans (hhead d hd)

/-- A read after a write to the same byte gives the byte written. -/
theorem memRead_memWrite_same (m : List Host.Cell) (a : Nat) (b : Byte) (hw : memWf m = true) :
    memRead (memWrite m a b) a = b := by
  induction m with
  | nil => unfold memWrite; split <;> simp_all [memRead]
  | cons c rest ih =>
    obtain ⟨-, hhead, hrest⟩ := (memWf_cons c rest).1 hw
    unfold memWrite
    split
    · next h => rw [memRead_cons, if_neg (by omega)]; exact ih hrest
    next hge =>
    split
    · next heq =>
      split
      · next hb => rw [memRead_below rest a hrest (fun d hd => heq ▸ hhead d hd), hb]
      · simp [memRead_cons]
    next hne =>
    split
    · next hb => rw [memRead_below _ a hw (fun d hd => by simp at hd; subst hd; omega), hb]
    · simp [memRead_cons]

theorem memRead_memWrite (m : List Host.Cell) (a x : Nat) (b : Byte) (hw : memWf m = true) :
    memRead (memWrite m a b) x = if x = a then b else memRead m x := by
  split
  · next h => rw [h, memRead_memWrite_same m a b hw]
  · next h => exact memRead_memWrite_other m b h

/-! ### Words -/

theorem wordOfBytes (w : Word16) :
    BitVec.ofNat 16 (256 * (BitVec.ofNat 8 (w.toNat / 256)).toNat + (BitVec.ofNat 8 w.toNat).toNat) = w := by
  have h := w.isLt
  apply BitVec.eq_of_toNat_eq
  simp only [BitVec.toNat_ofNat]
  omega

theorem memWord_memWriteWord (m : List Host.Cell) (i j : Nat) (w : Word16) (hw : memWf m = true) :
    memWord (memWriteWord m i w) j = if j = i then w else memWord m j := by
  unfold memWord memWriteWord
  simp only [memRead_memWrite _ _ _ _ (memWrite_wf _ _ _ hw), memRead_memWrite _ _ _ _ hw]
  by_cases h : j = i
  · subst h
    rw [if_neg (show ¬ 2 * j = 2 * j + 1 by omega), if_pos rfl, if_pos rfl, if_pos rfl, wordOfBytes]
  · rw [if_neg (show ¬ 2 * j = 2 * i + 1 by omega), if_neg (show ¬ 2 * j = 2 * i by omega),
      if_neg (show ¬ 2 * j + 1 = 2 * i + 1 by omega), if_neg (show ¬ 2 * j + 1 = 2 * i by omega), if_neg h]

theorem memRead_memWriteWord_other (m : List Host.Cell) {i x : Nat} (w : Word16) (h : x ≠ 2 * i) (h' : x ≠ 2 * i + 1) :
    memRead (memWriteWord m i w) x = memRead m x := by
  unfold memWriteWord
  rw [memRead_memWrite_other _ _ h', memRead_memWrite_other _ _ h]

/-- A run of writes gives each word the last value written to it. -/
theorem memWord_foldl (writes : List (Nat × Word16)) (m : List Host.Cell) (j : Nat) (hw : memWf m = true) :
    memWord (writes.foldl (fun m w => memWriteWord m w.1 w.2) m) j =
      ((writes.reverse.find? (fun w => w.1 = j)).map (·.2)).getD (memWord m j) := by
  induction writes generalizing m with
  | nil => rfl
  | cons w rest ih =>
    rw [List.foldl_cons, ih _ (memWriteWord_wf m w.1 w.2 hw), List.reverse_cons, List.find?_append,
      memWord_memWriteWord m w.1 j w.2 hw]
    cases hr : rest.reverse.find? (fun w => w.1 = j) with
    | some v => simp
    | none =>
      by_cases hj : w.1 = j
      · simp [hj]
      · simp [hj, show ¬ j = w.1 from fun e => hj e.symm]

/-- Writing words leaves every byte outside them alone. -/
theorem memRead_foldl_other (writes : List (Nat × Word16)) (m : List Host.Cell) (x : Nat)
    (h : ∀ w ∈ writes, x ≠ 2 * w.1 ∧ x ≠ 2 * w.1 + 1) :
    memRead (writes.foldl (fun m w => memWriteWord m w.1 w.2) m) x = memRead m x := by
  induction writes generalizing m with
  | nil => rfl
  | cons w rest ih =>
    rw [List.foldl_cons, ih _ (fun v hv => h v (List.mem_cons_of_mem _ hv)),
      memRead_memWriteWord_other m w.2 (h w (List.mem_cons_self ..)).1 (h w (List.mem_cons_self ..)).2]

end Sys2Proof.Machine
end

