-- ==== Sys2Proof/Laws/Operands.lean ====
section
/-! SUPPORT. What each reader of a payload field makes of the field as its writer wrote it (R183): it gives the value back and
leaves the bytes that follow; and which bit of a set of page slots stands for which slot. -/

namespace Sys2Proof.Machine

theorem Reader.bind_eq {α β : Type} (x : Reader α) (f : α → Reader β) (l : List Byte) :
    (x >>= f) l = (x l).bind (fun p => f p.1 p.2) := by
  simp only [bind, StateT.bind]

theorem Reader.pure_eq {α : Type} (a : α) (l : List Byte) : (pure a : Reader α) l = some (a, l) := rfl

theorem read8_cons (b : Byte) (rest : List Byte) : read8 (b :: rest) = some (b.toNat, rest) := rfl

theorem read8_u8 {n : Nat} (h : n < 256) (rest : List Byte) : read8 (u8 n ++ rest) = some (n, rest) := by
  simp only [u8, List.cons_append, List.nil_append, read8_cons, BitVec.toNat_ofNat, Nat.reducePow]
  rw [Nat.mod_eq_of_lt h]

theorem read16_u16 {n : Nat} (h : n < 65536) (rest : List Byte) : read16 (u16 n ++ rest) = some (n, rest) := by
  simp only [read16, u16, Reader.bind_eq, Reader.pure_eq, List.cons_append, List.nil_append, read8_cons,
    Option.bind_some, BitVec.toNat_ofNat, Nat.reducePow]
  congr 2; omega

theorem read24_u24 {n : Nat} (h : n < 16777216) (rest : List Byte) : read24 (u24 n ++ rest) = some (n, rest) := by
  simp only [read24, u24, read16, u16, Reader.bind_eq, Reader.pure_eq, List.cons_append, List.nil_append, read8_cons,
    Option.bind_some, BitVec.toNat_ofNat, Nat.reducePow]
  congr 2; omega

theorem read32_u32 {n : Nat} (h : n < 4294967296) (rest : List Byte) : read32 (u32 n ++ rest) = some (n, rest) := by
  simp only [read32, u32, read24, u24, read16, u16, Reader.bind_eq, Reader.pure_eq, List.cons_append, List.nil_append,
    read8_cons, Option.bind_some, BitVec.toNat_ofNat, Nat.reducePow]
  congr 2; omega

theorem readSigned_i16 {v : Int} (h : -32768 ≤ v) (h' : v ≤ 32767) (rest : List Byte) :
    readSigned (i16 v ++ rest) = some (v, rest) := by
  simp only [readSigned, i16, Reader.bind_eq, Reader.pure_eq,
    read16_u16 (show (v % 65536).toNat < 65536 by omega), Option.bind_some]
  congr 2; split <;> omega

theorem readFlag_flag (b : Bool) (rest : List Byte) : readFlag (flag b ++ rest) = some (b, rest) := by
  simp only [readFlag, flag, Reader.bind_eq, Reader.pure_eq, read8_u8 (show b.toNat < 256 by cases b <;> decide),
    Option.bind_some]
  cases b <;> rfl

theorem readOpt_opt {α : Type} {r : Reader α} {f : α → List Byte} {o : Option α} {rest : List Byte}
    (h : ∀ a, o = some a → r (f a ++ rest) = some (a, rest)) : readOpt r (opt f o ++ rest) = some (o, rest) := by
  cases o with
  | none => simp only [readOpt, opt, Reader.bind_eq, read8_u8 (show 0 < 256 by decide), Option.bind_some]; rfl
  | some a =>
    simp only [readOpt, opt, Reader.bind_eq, List.append_assoc, read8_u8 (show 1 < 256 by decide), Option.bind_some,
      if_neg (show ¬ (1 = 0) by decide), if_true, h a rfl, Reader.pure_eq]

theorem readTimes_flatMap {α : Type} {r : Reader α} {f : α → List Byte} (l : List α) (rest : List Byte)
    (h : ∀ a ∈ l, ∀ rest, r (f a ++ rest) = some (a, rest)) :
    readTimes r l.length (l.flatMap f ++ rest) = some (l, rest) := by
  induction l with
  | nil => rfl
  | cons a t ih =>
    simp only [List.length_cons, readTimes, List.flatMap_cons, List.append_assoc, Reader.bind_eq,
      h a (List.mem_cons_self ..), ih (fun x hx => h x (List.mem_cons_of_mem _ hx)), Option.bind_some, Reader.pure_eq]

theorem readList_listOf {α : Type} {r : Reader α} {f : α → List Byte} {l : List α} (hl : l.length < 256)
    (h : ∀ a ∈ l, ∀ rest, r (f a ++ rest) = some (a, rest)) (rest : List Byte) :
    readList r (listOf f l ++ rest) = some (l, rest) := by
  simp only [readList, listOf, Reader.bind_eq, List.append_assoc, read8_u8 hl, Option.bind_some]
  exact readTimes_flatMap l rest h

theorem readCell_u16 (c : CharCell) (rest : List Byte) : readCell (u16 c.toNat ++ rest) = some (c, rest) := by
  simp only [readCell, Reader.bind_eq, read16_u16 (show c.toNat < 65536 from c.isLt), Option.bind_some, Reader.pure_eq,
    BitVec.ofNat_toNat, BitVec.setWidth_eq]

theorem readCells_cells {l : List CharCell} (hl : l.length < 256) (rest : List Byte) :
    readList readCell (cells l ++ rest) = some (l, rest) :=
  readList_listOf hl (fun a _ rest => readCell_u16 a rest) rest

theorem edgesCode_lt (e : Edges) (c : Bool) : edgesCode e c < 32 := by
  obtain ⟨b1, b2, b3, b4⟩ := e
  cases b1 <;> cases b2 <;> cases b3 <;> cases b4 <;> cases c <;> decide

theorem buttonsOf_edgesCode (b : Buttons) : buttonsOf (edgesCode b.edges b.claim) = b := by
  obtain ⟨⟨b1, b2, b3, b4⟩, b5⟩ := b
  cases b1 <;> cases b2 <;> cases b3 <;> cases b4 <;> cases b5 <;> decide

theorem readPlayerArg_playerArgBytes {e : PlayerArg} (h : e.wellFormed = true) (rest : List Byte) :
    readPlayerArg (playerArgBytes e ++ rest) = some (e, rest) := by
  simp only [PlayerArg.wellFormed, fits8, fits16, Bool.and_eq_true, decide_eq_true_eq] at h
  have hb : edgesCode e.buttons.edges e.buttons.claim < 256 := (edgesCode_lt _ _).trans (by decide)
  simp only [readPlayerArg, playerArgBytes, buttonsByte, Reader.bind_eq, List.append_assoc, read8_u8 h.1.1,
    read16_u16 h.1.2, read8_u8 hb, read16_u16 h.2, Option.bind_some, Reader.pure_eq, buttonsOf_edgesCode]

/-! ### Sets of page slots (R183) -/

/-- Bit j of a byte of a page set is 1 exactly where its page slot is written. -/
theorem pageSetByte_bit (page : Page) (k j : Nat) (hj : j < 8) :
    ((pageSetByte page k).getD 0 0).getLsbD j = (page.getD (8 * k + j) none).isSome := by
  have bits : ∀ b0 b1 b2 b3 b4 b5 b6 b7 : Bool, ∀ i : Fin 8,
      (BitVec.ofNat 8 ((if b0 then 1 else 0) + ((if b1 then 2 else 0) + ((if b2 then 4 else 0) +
        ((if b3 then 8 else 0) + ((if b4 then 16 else 0) + ((if b5 then 32 else 0) + ((if b6 then 64 else 0) +
        (if b7 then 128 else 0))))))))).getLsbD i = ([b0, b1, b2, b3, b4, b5, b6, b7].getD i false) := by decide +kernel
  have h := bits (page.getD (8 * k + 0) none).isSome (page.getD (8 * k + 1) none).isSome
    (page.getD (8 * k + 2) none).isSome (page.getD (8 * k + 3) none).isSome (page.getD (8 * k + 4) none).isSome
    (page.getD (8 * k + 5) none).isSome (page.getD (8 * k + 6) none).isSome (page.getD (8 * k + 7) none).isSome ⟨j, hj⟩
  interval_cases j <;> exact h

/-- Page slot k stands at bit (k mod 8) of byte (k div 8) of a page set (R183). -/
theorem pageSet_bit (page : Page) (k : Nat) (hk : k < 64) :
    ((pageSet page).getD (k / 8) 0).getLsbD (k % 8) = (page.getD k none).isSome := by
  have h := pageSetByte_bit page (k / 8) (k % 8) (Nat.mod_lt _ (by decide))
  rw [Nat.div_add_mod] at h
  have e : (pageSet page).getD (k / 8) 0 = (pageSetByte page (k / 8)).getD 0 0 := by
    have : k / 8 < 8 := by omega
    generalize k / 8 = m at *
    interval_cases m <;> rfl
  rw [e, h]

end Sys2Proof.Machine
end

