-- ==== Sys2Proof/Tests/Slice0.lean ====
section
/-! SUPPORT. The model's own tests: operands that no frame can carry, worked figures of the manual, one step at a time, and for
every statement with hypotheses a state and operands that meet them all. -/

namespace Sys2Proof.Tests

open Sys2Proof Sys2Proof.Machine

-- The evaluations below are checked one after another: side by side, their threads take more memory than they need.
set_option Elab.async false

/-! ### Small states -/

/-- SETUP, right after the settings load, with nothing in the script. -/
def ready : State :=
  { State.reset with msc := { Controller.reset with mode := .setup, storeOp := .idle, resetLine := false } }

/-- A line in use with a mark. -/
def aLine (lid story : Nat) (mark : Mark) : PoolLine :=
  { lid := lid, story := some story, content := some { style := .normal, mark := mark, text := [0x41#16] } }

/-- Four lines in two stories, the second line HOLD, the fourth CUE 7, and an empty story at the end. -/
def lines4 : Store :=
  { pool := [aLine 1 1 .none, aLine 2 1 .hold, aLine 3 1 .none, aLine 4 2 (.cue 7)]
    rundown := [⟨1, none, some 100, [1, 2, 3], false⟩, ⟨2, none, none, [4], false⟩, ⟨3, none, none, [], false⟩]
    nextLid := 5 }

/-- REHEARSAL with that script, the eye on its first line. -/
def script : State :=
  { ready with
    msc := { ready.msc with mode := .rehearsal }
    scs := lines4
    sce := { ready.sce with anchor := some 1, currentStory := some 1 } }

/-- The script scrolled by the console at 48 units a frame, the eye just above the last line but one's end. -/
def moving : State :=
  { script with
    sce := { script.sce with anchor := some 3, fraction := 4048, manualSpeed := 48 }
    aua := { script.aua with holder := some .console } }

/-- The script in a scroll state. -/
def inState (x : ScrollState) : State := { script with sce := { script.sce with state := x } }

/-- A staging is in flight, at the top of the sequence. -/
def staging (seq : Nat) (restage : Bool) : State :=
  { script with wst := { script.wst with buffer := some script.snapshot, restage := restage, sequence := seq } }

/-- The state a command leaves. -/
def after (c : Instr) (s : State) : State :=
  match exec c s with
  | .next t => t
  | _ => s

/-! ### Operands that no line, port or frame can carry (R183) -/

/-- The smoke test of WellFormed: one term for each check, which the check refuses. -/
def illFormed : List Instr :=
  [.rdln .console 0 16777216 1, .rdln .console 0 1 256, .rdrn .console 0 256, .mspd .console 0 32768,
    .mspd .console 0 (-32769), .jump .console 0 256 0, .jump .console 0 4 16777216, .lock .console 0 256,
    .srcs .console 0 256 true 0, .srcs .console 0 0 true 256, .thrs .console 0 256, .parm .console 0 256 none 0 0,
    .parm .console 0 4 (some 256) 0 0, .parm .console 0 1 none 4294967296 0, .pget .console 0 256 none,
    .pget .console 0 22 (some 256)]

/-- More of them. -/
def illFormed2 : List Instr :=
  [.crvw .console 0 256 0 [0], .crvw .console 0 0 256 [0], .crvw .console 0 0 0 [65536],
    .crvw .console 0 0 0 (List.replicate 256 0), .crvr .console 0 256, .cntr .console 0 256, .clkc .console 0 256 none,
    .clkc .console 0 2 (some 4294967296), .cuea .console 0 256 0,
    .cuea .console 0 0 4294967296, .cued .console 0 256, .amod .console 0 256 none, .amod .console 0 1 (some 65536),
    .eopn .console 0 none 0, .eopn .console 0 (some (.storyDrop 1)) 65536, .eopn .console 0 (some (.storyDrop 65536)) 0,
    .eopn .console 0 (some (.linesReplace 1 16777216 1)) 0, .eopn .console 0 (some (.linesReplace 1 1 16777216)) 0,
    .eopn .console 0 (some (.linesInsert 1 (some 16777216))) 1, .eopn .console 0 (some (.storyMove 1 (some 65536))) 0,
    .eopn .console 0 (some (.storyInsert 1 none (some (List.replicate 256 0)) none)) 0,
    .eopn .console 0 (some (.storyInsert 1 none none (some 4294967296))) 0]

/-- And the rest. -/
def illFormed3 : List Instr :=
  [.elin .console 0 256 0 0 none [], .elin .console 0 0 256 0 none [], .elin .console 0 0 0 256 none [],
    .elin .console 0 0 0 2 (some 256) [], .elin .console 0 0 0 0 none (List.replicate 256 0), .qcan .console 0 256 0,
    .qcan .console 0 0 256, .qfrc .console 0 256 0, .qfrc .console 0 0 256,
    .slck .console 0 256 1 1 true true false true, .slck .console 0 0 65536 1 true true false true,
    .slck .console 0 0 1 65536 true true false true, .tgts .console 0 65536 none, .tgts .console 0 1 (some 4294967296),
    .stat .console 0 256 none, .stat .console 0 1 (some 256), .mode .console 0 256,
    .dgld .console 0 256 [] 0, .dgld .console 0 0 [] 65536, .dgld .console 0 0 [⟨256, 0, Buttons.released, 1⟩] 1,
    .dgld .console 0 0 [⟨0, 65536, Buttons.released, 1⟩] 1, .dgld .console 0 0 [⟨0, 0, Buttons.released, 65536⟩] 1,
    .dgld .console 0 0 (List.replicate 170 ⟨0, 0, Buttons.released, 1⟩) 1, .dgrn .console 0 256 none,
    .nten .console 0 [(256, true)],
    .nten .console 0 (List.replicate 256 (1, true)), .loadCompletion 0 (some []), .saveCompletion (some []),
    .linkFrameReceived .console [], .resetLine 182, .saveTimeout 181]

theorem test_illFormed_refused : illFormed.all (fun i => !i.wellFormed) = true := by decide +kernel
theorem test_illFormed2_refused : illFormed2.all (fun i => !i.wellFormed) = true := by decide +kernel
theorem test_illFormed3_refused : illFormed3.all (fun i => !i.wellFormed) = true := by decide +kernel

/-- Operands at the top of their fields are carried. -/
theorem test_wellFormed_accepted :
    [Instr.rdln .console 0 16777215 255, .mspd .rundown 255 (-32768), .parm .console 0 4 (some 255) 4294967295 0,
      .clkc .console 0 0 (some 4294967295), .dgrn .console 0 0 none, .stat .console 0 1 none, .nten .rundown 0 [(255, false)],
      .resetLine 181].all (·.wellFormed) = true := by decide +kernel

/-- The table gives no row any bits: no word spells a command. -/
theorem test_table_spells_no_word : decodeTableWord 0 0 = none ∧ decodeTableWord 32 7 = none := by decide

/-! ### Formats (R171, R183 to R186) -/

/-- The check over "123456789" is 29B1h (R171). -/
theorem test_crc_check_value : crc16 ((List.range 9).map fun k => BitVec.ofNat 8 (0x31 + k)) = 0x29B1#16 := by
  decide +kernel

/-- A FRZE request of tag 5, field by field as R183 lays it out up to its check. -/
theorem test_request_frame_layout :
    (LinkFrame.bytes ⟨.request, 5, Mnem.frze.bytes, []⟩).take 9 =
      [0xA5, 0x00, 0x06, 0x01, 0x05, 0x46, 0x52, 0x5A, 0x45] := by decide +kernel

/-- JUMP to LINE 66051 in four bytes (R183). -/
theorem test_jump_payload : requestPayload (.jump 4 66051) = [4, 1, 2, 3] := by decide

/-- The payload of a LINES_INSERT into story 258 after LID 5 with 3 page lines (R121, R183). -/
theorem test_eopn_payload :
    requestPayload (.eopn (some (.linesInsert 258 (some 5))) 3) = [2, 1, 2, 1, 0, 0, 5, 0, 3] := by decide

/-- A field that may be absent stands behind a presence byte: CLKC's value, DGRN's loop flag, an index (R183). -/
theorem test_presence_bytes :
    requestPayload (.clkc 2 (some 258)) = [2, 1, 0, 0, 1, 2] ∧ requestPayload (.clkc 0 none) = [0, 0] ∧
      requestPayload (.dgrn 0 (some true)) = [0, 1, 1] ∧ requestPayload (.parm 4 (some 3) 1) = [4, 1, 3, 0, 0, 0, 1] ∧
      requestPayload (.stat 0 none) = [0, 0] ∧ EditSlot.closed.status = [0, 0, 0, 0] := by decide

/-- The detail of REFERENCE_STATE LOST and of JUMP_DISCARDED to story 515 (R183). -/
theorem test_notice_details :
    (NoticeDetail.reference .lost).bytes = [0, 0, 0, 2] ∧ (NoticeDetail.jump (.story 515)).bytes = [1, 0, 2, 3] := by
  decide

/-- The three words of a frame from a wheel, written out bit by bit (R184): kind 1, sequence 5, deflection 2300, GO and CLAIM
pressed, each with the parity bit that makes its ones even. -/
def wheelWord1 : HandBits := 0b10000010000000001010#20
/-- Word 2: raw deflection 2300. -/
def wheelWord2 : HandBits := 0b00000001000111111001#20
/-- Word 3: GO and CLAIM. -/
def wheelWord3 : HandBits := 0b01000000000000100101#20

/-- The frame brings the port into LIVE with its fields in the latch (R77, R83, R184). -/
theorem test_hand_frame :
    ((after (.handWord 1 wheelWord3) (after (.handWord 1 wheelWord2) (after (.handWord 1 wheelWord1) script))).port 1).latch
      = ⟨some 2300, 220, some .wheel, true⟩ := by decide +kernel

/-- The words carry good parity, and the first of them with one bit wrong does not (R70). -/
theorem test_hand_parity :
    wordGood wheelWord1 = true ∧ wordGood wheelWord2 = true ∧ wordGood wheelWord3 = true ∧
      wordGood (wheelWord1 ^^^ 1#20) = false := by decide

/-- The sum of the default fields is 148,059, so the check word is 16,987 (section 9.2). -/
theorem test_default_check_word : checkSum Settings.defaults.words = 16987#16 := by decide +kernel

/-- The settings words of an image: a dead-band of port 1 at word 39, the threshold at word 160 (R186). -/
theorem test_image_words :
    (Settings.defaults.words.getD 39 0).toNat = 32 ∧ (Settings.defaults.words.getD 162 0).toNat = 48 ∧
      Settings.defaults.words.length = 179 := by decide +kernel

/-! ### Worked figures -/

/-- The slew rule from 120 toward 200, and the reversal from 200 to −100 (section 2.3). -/
theorem test_slew_figures :
    slew 120 200 48 96 = 168 ∧ slew 168 200 48 96 = 200 ∧ slew 200 (-100) 48 96 = 104 ∧ slew 8 (-100) 48 96 = 0 ∧
      slew 0 (-100) 48 96 = -48 ∧ slew (-96) (-100) 48 96 = -100 ∧ slew 500 300 48 96 = 404 := by decide

/-- The thumb wheel's curve (section 5.4). -/
def thumbWheel : Shaping :=
  { centre := 2048, deadband := 40, reverse := false
    curve := [0, 10, 40, 150, 310, 480, 660, 850] ++ (List.range 25).map (fun k => 1050 + 200 * k) }

/-- Its demands (section 5.4). -/
theorem test_thumb_wheel_figures :
    shape thumbWheel .wheel 2088 = 0 ∧ shape thumbWheel .wheel 2120 = 5 ∧ shape thumbWheel .wheel 2300 = 200 ∧
      shape thumbWheel .wheel 4095 = 5721 ∧ shape thumbWheel .wheel 0 = -5725 ∧
      shape { thumbWheel with reverse := true } .wheel 2300 = -200 := by decide +kernel

/-- The foot pedal (section 5.4), and the falling segment of R96. -/
theorem test_pedal_and_falling_segment :
    shape { Shaping.reset with centre := 180, deadband := 24 } .pedal 100 = 0 ∧
      shape { Shaping.reset with centre := 180, deadband := 24 } .pedal 1000 = 796 ∧
      shape { Shaping.reset with centre := 180, deadband := 24 } .pedal 3000 = 2048 ∧
      shapeMagnitude { Shaping.reset with curve := [900, 880] } 10 = 897 := by decide +kernel

/-- The paced demand (section 6.5). -/
theorem test_paced_figures :
    pacedDemand 16 4096 72704 1500 = 49 ∧ pacedDemand 16 4096 12288 96 = 128 ∧ pacedDemand 16 4096 96 10 = 16 ∧
      pacedDemand 16 4096 96 0 = 4096 := by decide

/-- The rundown of chapter 1's worked sequence. -/
def rundown110 : Store :=
  { pool := (List.range 9).map fun k => aLine (k + 1) (if k < 3 then 110 else if k < 7 then 120 else 140) .none
    rundown := [⟨110, none, none, [1, 2, 3], false⟩, ⟨120, none, none, [4, 5, 6, 7], false⟩,
      ⟨130, none, none, [], false⟩, ⟨140, none, none, [8, 9], false⟩]
    nextLid := 10 }

/-- A replace of lines 5 and 6 by 10, 11 and 12 in it, a move of story 140 to the start, a drop of story 110 (chapter 1). -/
theorem test_worked_applies :
    (rundown110.applied (.linesReplace 120 5 6) [10, 11, 12]).order = [1, 2, 3, 4, 10, 11, 12, 7, 8, 9] ∧
      ((rundown110.applied (.linesReplace 120 5 6) [10, 11, 12]).applied (.storyMove 140 none) []).order =
        [8, 9, 1, 2, 3, 4, 10, 11, 12, 7] ∧
      (rundown110.report (.linesReplace 120 5 6) [10, 11, 12]).before = some 4 ∧
      (rundown110.report (.linesReplace 120 5 6) [10, 11, 12]).after = some 7 ∧ rundown110.endPosition = 32768 := by
  decide +kernel

/-- The LID counter after a reservation, none where it is refused. -/
def counterAfter (st : Store) (n : Nat) : Option Nat :=
  match st.reserve n with
  | .ok (u, _) => some u.nextLid
  | .error _ => none

/-- The reservations at the end of the LIDs (R3). -/
theorem test_reservation_figures :
    counterAfter { Store.empty with nextLid := 16777210 } 8 = none ∧
      counterAfter { Store.empty with nextLid := 16777210 } 6 = some 16777216 ∧
      counterAfter { Store.empty with nextLid := 16777216 } 0 = some 16777216 := by decide +kernel

/-- The window of R145's example: six rows, eye row 3, the anchor at ordinal 1. -/
theorem test_window_rows :
    (windowRows lines4 (some 1) 6 3).map (fun r => match r with | .blank => 0 | .line lid .. => lid) =
      [0, 0, 1, 2, 3, 4] := by decide

/-! ### Single steps -/

/-- A speed above 16,384 is taken as 16,384, and CONSOLE takes authority (R36, R57). -/
theorem test_mspd_clamps_and_grants :
    (after (.mspd .console 1 20000) script).sce.manualSpeed = 16384 ∧
      (after (.mspd .console 1 20000) script).aua.holder = some .console := by decide +kernel

/-- A step that moves from (3, 4048) by 48 comes to line 4 at fraction 0 (R30). -/
theorem test_step_reaches_last_line :
    (after .scrollStep moving).sce.anchor = some 4 ∧ (after .scrollStep moving).sce.fraction = 0 := by decide +kernel

/-- A step by 16,384 from the first line stops at the HOLD line and holds (R31). -/
theorem test_step_caught_at_hold :
    (after .scrollStep { moving with sce := { moving.sce with anchor := some 1, velocity := 16384, manualSpeed := 16384 } }).sce
      = { moving.sce with anchor := some 2, fraction := 0, velocity := 0, state := .held, manualSpeed := 16384 } := by
  decide +kernel

/-- FRZE freezes, and its answer goes out on the idle line with status OK and state FROZEN (R37, R177, R183). -/
theorem test_frze_answers :
    (after (.frze .console 9) script).sce.state = .frozen ∧
      (after (.frze .console 9) script).cli.line = some ⟨.response, 9, Mnem.frze.bytes, [0, 1]⟩ := by decide +kernel

/-- A rundown link may not send FRZE (R175). -/
theorem test_frze_not_permitted_on_rundown :
    (after (.frze .rundown 9) script).rli.line = some ⟨.response, 9, Mnem.frze.bytes, [2]⟩ ∧
      (after (.frze .rundown 9) script).sce = script.sce := by decide +kernel

/-- In LOADING a request is answered BUSY (R173). -/
theorem test_loading_is_busy :
    (after (.clkc .console 2 0 none) { script with msc := { script.msc with mode := .loading } }).cli.line =
      some ⟨.response, 2, Mnem.clkc.bytes, [1]⟩ := by decide +kernel

/-- The pace limits crossing: a minimum of 5000 raises the maximum (section 6.5). -/
theorem test_pace_minimum_raises_maximum :
    (after (.parm .console 1 11 none 5000 0) script).tbp.paceMax = 5000 ∧
      (after (.parm .console 1 12 none 3000 0) (after (.parm .console 1 11 none 5000 0) script)).tbp.paceMax = 5000 := by
  decide +kernel

/-- From a memory that nothing has written the part comes up in SETUP with the image INVALID (R164, R165). -/
theorem test_start_up_on_blank_memory :
    (after (.loadCompletion 5 none) (after (.resetRelease 3) State.reset)).msc.mode = .setup ∧
      (after (.loadCompletion 5 none) (after (.resetRelease 3) State.reset)).msc.image = .invalid := by decide +kernel

/-- A frame of kind NOTICE is discarded and counted (R171). -/
theorem test_notice_frame_discarded :
    (after (.linkFrameReceived .console (LinkFrame.bytes ⟨.notice, 0, Mnem.frze.bytes, []⟩)) script).cli.errors = 1 := by
  decide +kernel

/-! ### Witnesses: for each statement with hypotheses, a state and operands that meet them, clause by clause -/

/-- The moving script with a step and a speed request waiting. -/
def waiting : State := { moving with pending := [.scrollStep, .mspd .console 1 0] }

theorem waiting_steps : ∃ t, step waiting = .next t := ⟨_, rfl⟩

theorem witness_StepTakesFrontCommand :
    waiting.pending = .scrollStep :: [.mspd .console 1 0] ∧ script.pending = [] := by decide +kernel

theorem witness_StepKeepsSettled : waiting.settled = true ∧ ∃ t, step waiting = .next t :=
  ⟨by decide +kernel, waiting_steps⟩

theorem witness_StepKeepsMemoryCanonical :
    { waiting with mem := [(0, 0x12#8), (359, 0#8)] }.memoryOk = true ∧
      ∃ t, step { waiting with mem := [(0, 0x12#8), (359, 0#8)] } = .next t := ⟨by decide +kernel, _, rfl⟩

theorem witness_StepKeepsQueuesWithinPlaces : waiting.queuesOk = true ∧ ∃ t, step waiting = .next t :=
  ⟨by decide +kernel, waiting_steps⟩

theorem witness_StepKeepsStore :
    ({ waiting with scs := { lines4 with nextLid := 16777216 } }.poolOk = true ∧
      { waiting with scs := { lines4 with nextLid := 16777216 } }.storeOk = true) ∧
      ∃ t, step { waiting with scs := { lines4 with nextLid := 16777216 } } = .next t := ⟨by decide +kernel, _, rfl⟩

theorem witness_StepKeepsAnchor :
    (waiting.storeOk = true ∧ waiting.anchorOk = true ∧ ready.storeOk = true ∧ ready.anchorOk = true) ∧
      ∃ t, step waiting = .next t := ⟨by decide +kernel, waiting_steps⟩

theorem witness_StepKeepsStillness : waiting.stillOk = true ∧ ∃ t, step waiting = .next t :=
  ⟨by decide +kernel, waiting_steps⟩

theorem witness_StepKeepsAuthority : waiting.authorityOk = true ∧ ∃ t, step waiting = .next t :=
  ⟨by decide +kernel, waiting_steps⟩

theorem witness_StepKeepsRanges :
    (waiting.handOk = true ∧ waiting.scrollOk = true ∧ waiting.controlOk = true) ∧ ∃ t, step waiting = .next t :=
  ⟨by decide +kernel, waiting_steps⟩

theorem witness_ReservationGivesConsecutiveLids :
    Store.empty.free < 16385 ∧
      (8 ≤ Store.empty.free ∧ 16777215 < { Store.empty with nextLid := 16777210 }.nextLid + 8 - 1) ∧
      16384 ≤ Store.empty.free ∧ Store.empty.nextLid + 16384 - 1 ≤ 16777215 ∧
      { Store.empty with nextLid := 16777210 }.nextLid + 6 - 1 ≤ 16777215 := by decide +kernel

theorem witness_RundownEdits :
    ([1] ++ [2, 3] ++ [4]).Nodup ∧ [2, 3].head? = some 2 ∧ [2, 3].getLast? = some 3 ∧
      (lines4.rundown.map (·.number)).Nodup ∧
      lines4.rundown = [] ++ ⟨1, none, some 100, [1, 2, 3], false⟩ ::
        [⟨2, none, none, [4], false⟩, ⟨3, none, none, [], false⟩] ∧
      lines4.rundown = [] ++ ⟨1, none, some 100, [1, 2, 3], false⟩ ::
        ([⟨2, none, none, [4], false⟩] ++ ⟨3, none, none, [], false⟩ :: []) := by decide +kernel

/-- A read of the rundown in flight on the console link. -/
def reading (k : ReadKind) : State := { script with cli := { script.cli with reading := some ⟨k, 3, [0]⟩ } }

theorem witness_ReadsCaptureAtStart :
    script.settled = true ∧ script.linkReady .console = true ∧ script.linkReady .rundown = true ∧
      script.scs.line? 1 = some (aLine 1 1 .none) ∧ script.scs.ordinal? 1 = some 0 ∧
      (aLine 1 1 .none).story = some 1 ∧ script.scs.story? 1 = some ⟨1, none, some 100, [1, 2, 3], false⟩ ∧
      (3 < 8 ∧ script.scs.order[0 + 3]? = some 4 ∧ script.scs.line? 4 = some (aLine 4 2 (.cue 7)) ∧
        (aLine 4 2 (.cue 7)).story = some 2 ∧ (aLine 4 2 (.cue 7)).content.isSome = true) ∧
      8 = max 1 (min 255 8) ∧ 1 = max 1 (min 0 8) ∧
      script.scs.line? 16777215 = none ∧ script.scs.line? 0 = none ∧ (reading .rdln).settled = true ∧
      ((reading .rdln).link .console).reading = some ⟨.rdln, 3, [0]⟩ ∧ (reading .rdrn).settled = true ∧
      ((reading .rdrn).link .console).reading = some ⟨.rdrn, 3, [0]⟩ := by decide +kernel

theorem witness_ClearShowEmptiesScript :
    (moving.settled = true ∧ moving.consoleReady = true ∧ moving.authorityOk = true ∧ moving.wst.buffer = none ∧
        moving.sce.manualSpeed ≠ 0) ∧
      (staging 0 false).settled = true ∧ (staging 0 false).consoleReady = true ∧ (staging 0 false).wst.buffer ≠ none ∧
      (staging 0 false).sce.manualSpeed = 0 := by decide +kernel

theorem witness_SlewRule :
    ((0 < (96 : Int) ∧ (-1 : Int) < 0) ∧ (96 : Int).natAbs ≤ 96 ∧ 96 < (97 : Int).natAbs) ∧
      (¬((0 < (500 : Int) ∧ (404 : Int) < 0) ∨ ((500 : Int) < 0 ∧ 0 < (404 : Int))) ∧ (404 : Int).natAbs < (500 : Int).natAbs ∧
        ((500 : Int) - 404).natAbs ≤ 96 ∧ 96 < ((500 : Int) - 403).natAbs) ∧
      (¬((0 < (0 : Int) ∧ (48 : Int) < 0) ∨ ((0 : Int) < 0 ∧ 0 < (48 : Int))) ∧ (0 : Int).natAbs ≤ (48 : Int).natAbs ∧
        ((48 : Int) - 0).natAbs ≤ 48 ∧ 48 < ((49 : Int) - 0).natAbs) := by decide +kernel

/-- Past the HOLD line no line of the script is marked HOLD. -/
theorem lines4_clear (p q : Nat) (h : 4096 ≤ p) : lines4.clearOfHold p q := by
  intro j x hj _ hx
  have h4 : j < 4 := (List.getElem?_eq_some_iff.1 hx).1
  obtain rfl | rfl : j = 2 ∨ j = 3 := by omega
  · cases (show some 3 = some x from hx); decide +kernel
  · cases (show some 4 = some x from hx); decide +kernel

/-- Line 4 is the last CUE line, and no line before it is a CUE line. -/
theorem lines4_no_cue (j x : Nat) (h : j < 3) (hx : lines4.order[j]? = some x) : (lines4.markOf x).cue? = none := by
  obtain rfl | rfl | rfl : j = 0 ∨ j = 1 ∨ j = 2 := by omega
  · cases (show some 1 = some x from hx); decide +kernel
  · cases (show some 2 = some x from hx); decide +kernel
  · cases (show some 3 = some x from hx); decide +kernel

theorem witness_StepLandings :
    ((0 : Nat) < 1 * 4096 ∧ 1 * 4096 ≤ 0 + 4096 ∧ lines4.order[1]? = some 2 ∧ lines4.markOf 2 = .hold ∧
        ∀ j x, 0 < j * 4096 → j < 1 → lines4.order[j]? = some x → lines4.markOf x ≠ .hold) ∧
      (4096 / 4096 < lines4.order.length ∧ lines4.clearOfHold 4096 (4096 + 8193) ∧
        lines4.clearOfHold 4096 (4096 + 8192) ∧ (lines4.order.length - 1) * 4096 < 4096 + 8193 ∧
        4096 + 8192 ≤ (lines4.order.length - 1) * 4096) ∧
      ((-4597 : Int) < 0 ∧ 4596 / 4096 < lines4.order.length ∧ lines4.order[0]? = some 1 ∧
        ((4596 : Nat) : Int) + (-4597) < 0 ∧ (0 : Int) ≤ ((4596 : Nat) : Int) + (-4596)) ∧
      (8192 < 3 * 4096 ∧ 3 * 4096 ≤ 12288 ∧ lines4.order[3]? = some 4 ∧ lines4.markOf 4 = .cue 7 ∧
        ∀ j x, 3 < j → j * 4096 ≤ 12288 → lines4.order[j]? = some x → (lines4.markOf x).cue? = none) ∧
      ∀ j x, 0 < j * 4096 → j * 4096 ≤ 12287 → lines4.order[j]? = some x → (lines4.markOf x).cue? = none := by
  refine ⟨⟨by decide +kernel, by decide +kernel, by decide +kernel, by decide +kernel, fun j x h k => by omega⟩,
    ⟨by decide +kernel, lines4_clear _ _ (by omega), lines4_clear _ _ (by omega), by decide +kernel, by decide +kernel⟩,
    by decide +kernel, ⟨by decide +kernel, by decide +kernel, by decide +kernel, by decide +kernel, fun j x h k => by omega⟩,
    fun j x _ h hx => lines4_no_cue j x (by omega) hx⟩

/-- The script with the eye on line `lid` at a fraction, the console asking for a speed that one step reaches. -/
def scrolling (lid fraction : Nat) (v : Int) : State :=
  { script with
    sce := { script.sce with anchor := some lid, fraction := fraction, manualSpeed := v, velocity := v }
    aua := { script.aua with holder := some .console } }

/-- The six ways a step may go, each from a state in which it goes that way: caught at line 2, clamped at the end, landing on
the end, clamped at the top, landing on the top, and at rest. -/
theorem witness_ScrollStepMovesOrStays :
    ((scrolling 1 0 4096).settled = true ∧ (scrolling 1 0 4096).movesBy 0 4096 ∧ 0 < 1 * 4096 ∧
        ((1 * 4096 : Nat) : Int) ≤ (0 : Nat) + 4096 ∧ (scrolling 1 0 4096).scs.order[1]? = some 2 ∧
        (scrolling 1 0 4096).scs.markOf 2 = .hold ∧
        ∀ j x, 0 < j * 4096 → j < 1 → (scrolling 1 0 4096).scs.order[j]? = some x →
          (scrolling 1 0 4096).scs.markOf x ≠ .hold) ∧
      ((scrolling 3 4048 49).settled = true ∧ (scrolling 3 4048 49).movesBy 12240 49 ∧
        (scrolling 3 4048 49).scs.clearOfHold 12240 ((12240 : Nat) + (49 : Int)).toNat ∧
        (scrolling 3 4048 49).scs.order.getLast? = some 4 ∧ ((3 * 4096 : Nat) : Int) < (12240 : Nat) + 49) ∧
      ((scrolling 3 4048 48).settled = true ∧ (scrolling 3 4048 48).movesBy 12240 48 ∧
        (scrolling 3 4048 48).scs.clearOfHold 12240 ((12240 : Nat) + (48 : Int)).toNat ∧
        (scrolling 3 4048 48).scs.order[((12240 : Nat) + (48 : Int)).toNat / 4096]? = some 4 ∧
        ((12240 : Nat) : Int) + 48 ≤ ((3 * 4096 : Nat) : Int)) ∧
      ((scrolling 2 500 (-4597)).settled = true ∧ (scrolling 2 500 (-4597)).movesBy 4596 (-4597) ∧
        ((4596 : Nat) : Int) + (-4597) < 0 ∧ (scrolling 2 500 (-4597)).scs.order[0]? = some 1) ∧
      ((scrolling 2 500 (-4596)).settled = true ∧ (scrolling 2 500 (-4596)).movesBy 4596 (-4596) ∧
        (0 : Int) ≤ ((4596 : Nat) : Int) + (-4596) ∧
        (scrolling 2 500 (-4596)).scs.order[(((4596 : Nat) : Int) + (-4596)).toNat / 4096]? = some 1) ∧
      ((scrolling 2 500 0).settled = true ∧ (scrolling 2 500 0).movesBy 4596 0) ∧
      (ready.settled = true ∧ ready.sce.anchor = none ∧ ready.msc.mode.suspended = true ∧
        ready.pressed.pendingJump = none) ∧
      (inState .held).settled = true ∧ (inState .held).pressed.state ≠ .running ∧
      (inState .held).pressed.pendingJump = none := by
  refine ⟨⟨by decide +kernel, ⟨1, 0, by decide +kernel⟩, by decide +kernel, by decide +kernel, by decide +kernel,
      by decide +kernel, fun j x h k => by omega⟩,
    ⟨by decide +kernel, ⟨3, 2, by decide +kernel⟩, lines4_clear _ _ (by omega), by decide +kernel, by decide +kernel⟩,
    ⟨by decide +kernel, ⟨3, 2, by decide +kernel⟩, lines4_clear _ _ (by omega), by decide +kernel, by decide +kernel⟩,
    ⟨by decide +kernel, ⟨2, 1, by decide +kernel⟩, by decide +kernel, by decide +kernel⟩,
    ⟨by decide +kernel, ⟨2, 1, by decide +kernel⟩, by decide +kernel, by decide +kernel⟩,
    ⟨by decide +kernel, ⟨2, 1, by decide +kernel⟩⟩, by decide +kernel, by decide +kernel, by decide +kernel, by decide +kernel⟩

/-- A jump waits in the slot. -/
def jumping (j : JumpTarget) : State := { script with sce := { script.sce with pendingJump := some j } }

theorem witness_ScrollStepAppliesJump :
    ((jumping .top).settled = true ∧ (jumping .top).pressed.pendingJump = some .top ∧
        (jumping .top).resolve .top = some 1 ∧ (jumping (.line 9)).settled = true ∧
        (jumping (.line 9)).pressed.pendingJump = some (.line 9) ∧ (jumping (.line 9)).resolve (.line 9) = none) ∧
      (ready.sce.currentStory = none ∧ ∀ x ∈ script.scs.rundown, x.number ≠ 4) ∧
      ((script.scs.rundown.map (·.number)).Nodup ∧
        script.scs.rundown = [] ++ ⟨1, none, some 100, [1, 2, 3], false⟩ ::
          [⟨2, none, none, [4], false⟩, ⟨3, none, none, [], false⟩] ∧ script.sce.currentStory = some 1) ∧
      script.scs.rundown = [⟨1, none, some 100, [1, 2, 3], false⟩, ⟨2, none, none, [4], false⟩] ++
        ⟨3, none, none, [], false⟩ :: [] ∧
      { script with sce := { script.sce with anchor := some 4, currentStory := some 2 } }.scs.rundown =
        ([] ++ ⟨1, none, some 100, 1 :: [2, 3], false⟩ :: []) ++ ⟨2, none, none, [4], false⟩ ::
          [⟨3, none, none, [], false⟩] := by decide +kernel

theorem witness_ButtonsActInOrder :
    (⟨true, true, true, true⟩ : Edges).holdToggle = true ∧ script.sce.state ≠ .frozen ∧
      { script.sce with state := .frozen }.state = .frozen ∧
      ((⟨false, true, false, true⟩ : Edges).holdToggle = false ∧ (⟨false, true, false, true⟩ : Edges).go = true ∧
        { script.sce with state := .held }.state = .held) ∧
      (⟨false, true, false, true⟩ : Edges).go = true ∧ script.sce.state ≠ .held := by decide +kernel

theorem witness_SpeedAndJumpRequests :
    ¬((-16384 : Int) = 0 ↔ script.sce.manualSpeed = 0) ∧ script.settled = true ∧ script.consoleReady = true ∧ (-16384 : Int) = max (-16384) (min (-32768) 16384) ∧
      (16384 : Int) = max (-16384) (min 32767 16384) ∧ ((0 : Int) = 0 ↔ script.sce.manualSpeed = 0) ∧
      (script.scs.story? 3).isSome = true ∧ (script.scs.line? 4).isSome = true := by decide +kernel

theorem witness_FreezeThawRelease :
    script.settled = true ∧ script.consoleReady = true ∧ (inState .frozen).settled = true ∧
      (inState .frozen).consoleReady = true ∧ (inState .frozen).stillOk = true ∧ (inState .held).settled = true ∧
      (inState .held).consoleReady = true ∧ (inState .held).stillOk = true ∧ script.aua.holder = none ∧
      lines4.landForward 0 4096 = some ⟨2, 0, 0, true, 4096⟩ := by decide +kernel

theorem witness_LockAndFree :
    (script.settled = true ∧ script.consoleReady = true ∧ script.msc.mode ≠ .setup ∧ 5 = Source.auto.number) ∧
      (moving.settled = true ∧ moving.consoleReady = true ∧ moving.msc.mode ≠ .setup ∧
        moving.aua.holder = some .console ∧ moving.eligible .console = true ∧ moving.active .console = true) ∧
      ∀ x, moving.eligible x = true → moving.active x = true →
        (moving.aua.entry x).priority ≤ (moving.aua.entry .console).priority := by
  refine ⟨by decide +kernel, by decide +kernel, fun x _ _ => ?_⟩
  rcases x with _ | n | _
  · decide +kernel
  · fin_cases n <;> decide +kernel
  · decide +kernel

theorem witness_SourceAndThresholdWrites :
    moving.settled = true ∧ moving.consoleReady = true ∧ 0 = Source.console.number ∧ 4 = (Source.hand 3).number ∧
      (15 : Nat) < 256 ∧ (255 : Nat) < 256 ∧ moving.authorityOk = true := by decide +kernel

/-- The console holds through hold-over, with a count. -/
def holdingOver (n : Nat) : State :=
  { moving with sce := { moving.sce with manualSpeed := 0 }, aua := { moving.aua with inHoldOver := true, count := n } }

/-- A source holds: its console entry, the auto mode and the console speed as given. -/
def heldBy (h : Source) (console : SourceEntry) (m : AutoMode) (speed : Int) : State :=
  { script with
    sce := { script.sce with manualSpeed := speed }
    aua := { script.aua with holder := some h, console := console }
    tbp := { script.tbp with autoMode := m } }

/-- The cases of the grant rule: SETUP, a lock, no holder, an ineligible one, an active one kept and pre-empted, an inactive
one kept and taken over from at equal priority. -/
theorem witness_HoldOverCountsDown_grant :
    (ready.msc.mode = .setup ∧ (heldBy .console ⟨true, 12⟩ .off 5).msc.mode ≠ .setup ∧
        (heldBy .console ⟨true, 12⟩ .off 5).msc.mode ≠ .loading) ∧
      { script.aua with lock := some .auto }.lock = some .auto ∧ (script.aua.lock = none ∧ script.aua.holder = none) ∧
      ((heldBy (.hand 0) ⟨true, 12⟩ .off 5).aua.lock = none ∧
        (heldBy (.hand 0) ⟨true, 12⟩ .off 5).eligible (.hand 0) = false) ∧
      ((heldBy .console ⟨true, 12⟩ .off 5).eligible .console = true ∧
        (heldBy .console ⟨true, 12⟩ .off 5).active .console = true ∧
        (heldBy .console ⟨true, 12⟩ .off 5).best 13 = none ∧
        (heldBy .console ⟨true, 3⟩ .constant 5).active .console = true ∧
        (heldBy .console ⟨true, 3⟩ .constant 5).best 4 = some .auto) ∧
      (heldBy .console ⟨true, 4⟩ .constant 0).eligible .console = true ∧
      (heldBy .console ⟨true, 4⟩ .constant 0).active .console = false ∧
      (heldBy .console ⟨true, 4⟩ .constant 0).best 4 = some .auto ∧
      (heldBy .console ⟨true, 5⟩ .constant 0).active .console = false ∧
      (heldBy .console ⟨true, 5⟩ .constant 0).best 5 = none := by decide +kernel

theorem witness_HoldOverCountsDown :
    (script.best 0 = none ∧ moving.best 0 = some .console ∧ moving.candidate 0 .console = true) ∧
      (moving.settled = true ∧ moving.aua.inHoldOver = false) ∧
      ((holdingOver 2).settled = true ∧ (holdingOver 2).aua.inHoldOver = true ∧ 1 < (holdingOver 2).aua.count) ∧
      (holdingOver 1).settled = true ∧ (holdingOver 1).aua.inHoldOver = true ∧ (holdingOver 1).aua.count ≤ 1 ∧
      (holdingOver 1).aua.holder ≠ (holdingOver 1).best 0 := by decide +kernel

/-- The script with hand port 1 as given. -/
def withPort (p : HandPort) : State := script.setPort 1 p

/-- A port in a state, with a bad run and a silence count. -/
def portIn (st : PortState) (badRun silence : Nat) : HandPort :=
  { HandPort.reset with state := st, badRun := badRun, silence := silence }

/-- The player in DIAGNOSTIC with one entry, running or not. -/
def playing (running : Bool) (cursor : Option Nat) (remaining : Nat) : State :=
  { ready with
    msc := { ready.msc with
      mode := .diagnostic, player := { Player.reset with length := 1, running := running, cursor := cursor, remaining := remaining } } }

/-- Port 1 with an assembler. -/
def assembling (a : Assembler) : State := withPort { portIn .live 7 0 with assembler := a }

/-- A word with bad parity, an abort, a first word, a first word that is also the last, a later word, and a last word. -/
def words : List HandBits := [1#20, 0x20001#20, 0x80001#20, 0xC0000#20, 0#20, 0x40001#20]

theorem witness_HandWordAssembly :
    ((State.reset.settled = true ∧ State.reset.msc.resetLine = true) ∧ (withPort (portIn .disabled 0 0)).settled = true ∧
        ((withPort (portIn .disabled 0 0)).port 1).state = .disabled) ∧
      (∀ a ∈ [Assembler.idle, .hunt, .open1 15 63, .open2 0 63 4095, .open2 4 63 0], (assembling a).settled = true ∧
        (assembling a).msc.resetLine = false ∧ ((assembling a).port 1).state ≠ .disabled ∧
        ((assembling a).port 1).assembler = a) ∧
      words.map wordGood = [false, true, true, true, true, true] ∧
      words.map (fun w => (w.getLsbD 19, w.getLsbD 18, w.getLsbD 17)) =
        [(false, false, false), (false, false, true), (true, false, false), (true, true, false), (false, false, false),
          (false, true, false)] := by decide +kernel

/-- The eighth bad frame of a LIVE port makes it FAULT, and PORT_STATE says so (R76, R81, R183). -/
theorem test_eighth_bad_frame :
    ((after (.handWord 1 0#20) (assembling .idle)).port 1).state = .fault ∧
      (after (.handWord 1 0#20) (assembling .idle)).cli.line =
        some ⟨.notice, 0, [0x4E, 0x54, 0x43, 0x45], [8, 1, 1, 4, 0, 0]⟩ := by decide +kernel

/-- Port 1 in the middle of a wheel's frame of sequence 63, LIVE with number 62 expected and GO held. -/
def midWheel (st : PortState) : HandPort :=
  { portIn st 7 0 with
    assembler := .open2 UnitKind.wheel.code 63 4095
    expected := some 62
    record := some ⟨false, true, false, false⟩ }

theorem witness_ValidFrameFillsLatch :
    ((withPort (midWheel .live)).settled = true ∧ (withPort (midWheel .live)).msc.resetLine = false ∧
        (withPort (midWheel .live)).msc.mode ≠ .diagnostic ∧ ((withPort (midWheel .live)).port 1).state = .live ∧
        ((withPort (midWheel .live)).port 1).assembler = .open2 UnitKind.wheel.code 63 4095 ∧
        ((withPort (midWheel .live)).port 1).expected = some 62 ∧ ((1 : Nat) : Int) = ((63 : Nat) - (62 : Nat) : Int) % 64 ∧
        ((withPort (midWheel .live)).port 1).record = some ⟨false, true, false, false⟩) ∧
      (wordGood wheelWord3 = true ∧ wheelWord3.getLsbD 19 = false ∧ wheelWord3.getLsbD 18 = true ∧
        wheelWord3.getLsbD 17 = false ∧ (⟨false, true, false, false⟩ : Edges) =
          ⟨wheelWord3.getLsbD 1, wheelWord3.getLsbD 2, wheelWord3.getLsbD 3, wheelWord3.getLsbD 4⟩) ∧
      ((withPort (midWheel .silent)).settled = true ∧ ((withPort (midWheel .silent)).port 1).state = .silent) ∧
      { withPort (midWheel .live) with msc := (playing false (some 0) 0).msc }.msc.mode = .diagnostic := by decide +kernel

theorem witness_PortTickCountsSilence :
    (script.settled = true ∧ (script.port 1).state ≠ .live) ∧
      ((withPort (portIn .live 0 3)).settled = true ∧ ((withPort (portIn .live 0 3)).port 1).state = .live ∧
        ((withPort (portIn .live 0 3)).port 1).silence < 4) ∧
      (withPort (portIn .live 0 4)).settled = true ∧ 4 ≤ ((withPort (portIn .live 0 4)).port 1).silence := by
  decide +kernel

theorem witness_DemandOfDeflection :
    ((40 : Int) = (if UnitKind.wheel = .pedal ∧ ((2088 : Nat) : Int) - thumbWheel.centre < 0 then 0
        else ((2088 : Nat) : Int) - thumbWheel.centre) ∧ (40 : Int).natAbs ≤ thumbWheel.deadband) ∧
      ((41 : Int) = (if UnitKind.wheel = .pedal ∧ ((2089 : Nat) : Int) - thumbWheel.centre < 0 then 0
        else ((2089 : Nat) : Int) - thumbWheel.centre) ∧ thumbWheel.deadband < (41 : Int).natAbs ∧
        1 = (41 : Int).natAbs - thumbWheel.deadband ∧ 0 = 1 / 64 ∧ 1 = 1 % 64 ∧
        (0 : Int) = thumbWheel.curve.getD 0 0 +
          Int.tdiv (((thumbWheel.curve.getD 1 0 : Int) - thumbWheel.curve.getD 0 0) * (1 : Nat)) 64) := by decide +kernel

/-- ON_AIR with a deflection latched at port 1. -/
def onAir : State := { script with msc := { script.msc with mode := .onAir } }
/-- A deflection is in the latch of port 1. -/
def sampled : State := withPort { portIn .live 0 0 with latch := ⟨some 4095, 0, some .stick, false⟩ }

theorem witness_ShaperRequests :
    (script.settled = true ∧ script.consoleReady = true ∧ script.msc.mode ≠ .onAir ∧
        (script.dsh.get 3).curve.length = 33 ∧ 32 + [65535].length ≤ 33 ∧ (∀ v ∈ [65535], v < 65536)) ∧
      (sampled.settled = true ∧ sampled.consoleReady = true ∧ sampled.msc.mode ≠ .onAir ∧
        (sampled.port 1).latch.deflection = some 4095) ∧
      (script.port 1).latch.deflection = none ∧ onAir.settled = true ∧ onAir.consoleReady = true ∧
      onAir.msc.mode = .onAir := by decide +kernel

/-- The timebase in a state, its last tick at 1000. -/
def inRef (st : RefState) : State := { script with tbp := { script.tbp with state := st, lastTick := 1000, now := 1000 } }

theorem witness_ReferenceEdgeTaken :
    ((inRef .free).settled = true ∧ (inRef .free).msc.resetLine = false ∧ (inRef .free).tbp.state = .free) ∧
      ((inRef .locked).settled = true ∧ (inRef .locked).tbp.state = .locked ∧
        2 * (60939 - (inRef .locked).tbp.lastTick) < (inRef .locked).tbp.rate.period ∧
        (inRef .locked).tbp.rate.period ≤ 2 * (60940 - (inRef .locked).tbp.lastTick) ∧
        60939 = max (inRef .locked).tbp.now 60939) ∧
      (inRef .lost).settled = true ∧ (inRef .lost).tbp.state = .lost := by decide +kernel

theorem witness_GeneratorAndLossTick :
    ((inRef .lost).settled = true ∧ (inRef .lost).msc.resetLine = false ∧ (inRef .lost).tbp.state ≠ .locked) ∧
      (inRef .locked).settled = true ∧ (inRef .locked).msc.resetLine = false ∧ (inRef .locked).tbp.state = .locked := by
  decide +kernel

/-- The clock runs at 100 with a timer armed for 101 and another for 102. -/
def clocked : State :=
  { script with tbp := { script.tbp with clock := 100, running := true, timers := ⟨⟨101, true⟩, ⟨102, true⟩, ⟨0, false⟩, ⟨100, true⟩⟩ } }

theorem witness_ShowTimeAndCueTimers :
    (clocked.settled = true ∧ (clocked.scs.rundown.map (·.number)).Nodup ∧ clocked.tbp.running = true ∧
        clocked.sce.currentStory = some 1 ∧ clocked.scs.story? 1 = some ⟨1, none, some 100, [1, 2, 3], false⟩ ∧
        100 < (after .showTimeTick clocked).tbp.clock) ∧
      ({ clocked with tbp := { clocked.tbp with running := false } }.settled = true ∧
        { clocked with tbp := { clocked.tbp with running := false } }.tbp.running ≠ true) ∧
      ((clocked.tbp.timers.get 3).armed = true ∧ (clocked.tbp.timers.get 3).compare ≤ clocked.tbp.clock) ∧
      clocked.tbp.clock < (clocked.tbp.timers.get 0).compare ∧ (clocked.tbp.timers.get 2).armed = false := by
  decide +kernel

theorem witness_ClockAndTimerRequests :
    clocked.settled = true ∧ clocked.consoleReady = true ∧ 4294967295 < 4294967296 := by decide +kernel

theorem witness_AutoModeAndPacedDemand :
    (script.settled = true ∧ script.consoleReady = true ∧ (∀ v, some 65535 = some v → v < 65536) ∧
        (AutoMode.off = .off ↔ script.tbp.autoMode = .off)) ∧
      ¬(AutoMode.pace = .off ↔ script.tbp.autoMode = .off) ∧ (16 : Nat) ≤ 4096 ∧ (0 : Int) ≤ 0 ∧ (0 : Int) < 1500 ∧ pacedDemand 16 4096 72704 1500 < 4096 ∧
      ((72704 : Nat) : Int) ≤ (49 : Nat) * (1500 : Int) := by
  refine ⟨⟨by decide +kernel, by decide +kernel, fun v h => ?_, by decide +kernel⟩, by decide +kernel⟩
  cases h; decide +kernel

/-- The target of a step: in SETUP, and under each source, AUTO in each of its modes. -/
theorem witness_AutoModeAndPacedDemand_target :
    (ready.msc.mode = .setup ∧ script.aua.holder = none) ∧
      (script.msc.mode ≠ .setup ∧ script.msc.mode ≠ .loading) ∧
      ((heldBy .console ⟨true, 12⟩ .off 5).aua.holder = some .console ∧
        (heldBy (.hand 3) ⟨true, 12⟩ .off 5).aua.holder = some (.hand 3) ∧
        (heldBy .auto ⟨true, 12⟩ .pace 5).aua.holder = some .auto) ∧
      (heldBy .auto ⟨true, 12⟩ .pace 5).tbp.autoMode = .pace ∧
      (heldBy .auto ⟨true, 12⟩ .pace 5).sce.currentStory = some 1 ∧
      (heldBy .auto ⟨true, 12⟩ .pace 5).scs.story? 1 = some ⟨1, none, some 100, [1, 2, 3], false⟩ ∧
      ([1, 2, 3] : List Nat).getLast? = some 3 ∧ (heldBy .auto ⟨true, 12⟩ .pace 5).scs.ordinal? 3 = some 2 ∧
      (heldBy .auto ⟨true, 12⟩ .pace 5).target 0 = 123 := by decide +kernel

/-- An open edit of two lines on the rundown link, its first page slot written. -/
def editing : State :=
  script.setSlot .rundown (.opened (.linesReplace 1 3 3) 2
    ((List.replicate 64 none).set 0 (some ⟨.normal, .none, []⟩)))

/-- A copy in flight on the rundown link. -/
def copyingNow : State := script.setSlot .rundown (.copying (.linesReplace 1 3 3) 2 (List.replicate 64 none))

theorem witness_EditSlotRequests :
    (script.settled = true ∧ script.linkReady .rundown = true ∧ (script.slot .rundown).code ≠ 2 ∧
        (EditParams.linesReplace 65535 16777215 1).wellFormed = true ∧
        editInRange (.linesReplace 65535 16777215 1) = true ∧ countInRange (.linesReplace 65535 16777215 1) 64 = true) ∧
      (copyingNow.settled = true ∧ copyingNow.linkReady .rundown = true ∧ (copyingNow.slot .rundown).code = 2) ∧
      editing.settled = true ∧ editing.linkReady .rundown = true ∧ (editing.slot .rundown).code = 1 ∧
      Mark.cue? (.cue 255) = some 255 ∧ (List.replicate 255 0x41#16).length < 256 := by decide +kernel

/-- The page of an edit of one line. -/
def onePage : Page := (List.replicate 64 none).set 0 (some ⟨.normal, .none, []⟩)

/-- An edit of one line ready to commit, on the console link. -/
def committing (e : EditParams) : State := script.setSlot .console (.opened e 1 onePage)

/-- A drop of story 2, with no line, ready to commit. -/
def dropping : State := script.setSlot .console (.opened (.storyDrop 2) 0 (List.replicate 64 none))

/-- The edit of one line with no LID left. -/
def idsGone : State := { committing (.linesReplace 1 3 3) with scs := { lines4 with nextLid := 16777216 } }

theorem witness_CommitAcceptedOrRefused :
    ((committing (.linesReplace 1 3 3)).settled = true ∧ (committing (.linesReplace 1 3 3)).linkReady .console = true ∧
        (committing (.linesReplace 1 3 3)).slot .console = .opened (.linesReplace 1 3 3) 1 onePage ∧
        (committing (.linesReplace 1 3 3)).commitChecks .console 7 (.linesReplace 1 3 3) 1 onePage = none ∧
        counterAfter (committing (.linesReplace 1 3 3)).scs 1 = some 6) ∧
      (dropping.settled = true ∧ dropping.linkReady .console = true ∧
        dropping.slot .console = .opened (.storyDrop 2) 0 (List.replicate 64 none) ∧
        dropping.commitChecks .console 7 (.storyDrop 2) 0 (List.replicate 64 none) = none ∧
        counterAfter dropping.scs 0 = some 5 ∧ copyingEntry? dropping.ede.queue .console = none) ∧
      ((committing (.linesReplace 9 3 3)).settled = true ∧ (committing (.linesReplace 9 3 3)).linkReady .console = true ∧
        (committing (.linesReplace 9 3 3)).commitChecks .console 7 (.linesReplace 9 3 3) 1 onePage =
          some (.unknownStory, 9)) ∧
      (idsGone.settled = true ∧ idsGone.linkReady .console = true ∧
        idsGone.commitChecks .console 7 (.linesReplace 1 3 3) 1 onePage = none ∧
        counterAfter idsGone.scs 1 = none) ∧
      script.settled = true ∧ script.linkReady .rundown = true ∧ (script.slot .rundown).code ≠ 1 := by decide +kernel

/-- Lock entry 7 covers story 1, keeps the rundown link out and is sticky. -/
def locked : State :=
  { script with ede := { script.ede with locks := script.ede.locks.set 7 ⟨1, 1, true, false, true, true⟩ } }

/-- An entry of the console link for line 5, in a state, with its cancel marked or not. -/
def anEntry (e : EditParams) (st : EntryState) (marked : Bool) : Entry := ⟨.console, 7, e, [5], st, marked, false⟩

/-- The checks of ECMT: an unwritten page slot, four entries queued, the tag in the queue; a lock entry that keeps the link out;
and limits that are met. -/
theorem witness_CommitAcceptedOrRefused_checks :
    (0 < 1 ∧ (List.replicate 64 (none : Option LineContent)).getD 0 none = none) ∧
      (∀ j, j < 1 → onePage.getD j none ≠ none) ∧
      4 ≤ (script.setQueue (List.replicate 4 (anEntry (.storyDrop 2) .waiting false))).ede.queue.length ∧
      (anEntry (.storyDrop 2) .waiting false ∈
          (script.setQueue [anEntry (.storyDrop 2) .waiting false]).ede.queue ∧
        (anEntry (.storyDrop 2) .waiting false).link = .console ∧ (anEntry (.storyDrop 2) .waiting false).tag = 7) ∧
      (script.ede.queue.length < 4 ∧ ∀ q ∈ script.ede.queue, q.link = .console → q.tag ≠ 7) ∧
      script.scs.story? 9 = none ∧ script.scs.story? 1 = some ⟨1, none, some 100, [1, 2, 3], false⟩ ∧
      locked.entryChecks .rundown (.linesReplace 1 1 3) 1 = some (.locked, 1) ∧
      locked.entryChecks .rundown (.linesReplace 1 3 1) 1 = some (.badSpan, 1) ∧
      script.entryChecks .console (.linesInsert 1 none) 2046 = some (.storyFull, 1) ∧
      script.entryChecks .console (.linesInsert 1 none) 2045 = none := by decide +kernel

/-- An ECMT with no line is applied within its step: the story is out of the rundown and its slot CLOSED (R126, R128). -/
theorem test_empty_commit_completes :
    (after (.ecmt .console 7) dropping).scs.rundown.map (·.number) = [1, 3] ∧
      (after (.ecmt .console 7) dropping).ede.queue = [] ∧
      (after (.ecmt .console 7) dropping).ede.consoleSlot = .closed := by decide +kernel

/-- The script with that entry queued, its line reserved. -/
def queued (m : Mode) (e : EditParams) (st : EntryState) (marked : Bool) : State :=
  { (if st = .copying then script.setSlot .console (.copying e 1 onePage) else script).setQueue
      [anEntry e st marked] with
    scs := { lines4 with pool := lines4.pool ++ [⟨5, none, none⟩], nextLid := 6 }
    msc := { script.msc with mode := m } }

/-- The first story of an empty script, with one line, waits. -/
def firstStory : State :=
  { (ready.setQueue [⟨.console, 7, .storyInsert 1 none none none, [1], .waiting, false, false⟩]) with
    scs := { rundown := [], pool := [⟨1, none, some ⟨.normal, .none, []⟩⟩], nextLid := 2 }
    msc := { ready.msc with mode := .rehearsal } }

theorem witness_CopyCompletes :
    (queued .rehearsal (.linesReplace 1 3 3) .copying true).slot .console = .copying (.linesReplace 1 3 3) 1 onePage ∧
      copyingEntry? (queued .rehearsal (.linesReplace 1 3 3) .copying true).ede.queue .console =
        some (anEntry (.linesReplace 1 3 3) .copying true) ∧
      copyingEntry? (queued .rehearsal (.linesReplace 1 3 3) .copying false).ede.queue .console =
        some (anEntry (.linesReplace 1 3 3) .copying false) := by decide +kernel

/-- The page of that copy, for two reserved lines: line 1 is neither of them, line 5 is the second. -/
theorem witness_CopyCompletes_page :
    let st := (queued .rehearsal (.linesReplace 1 3 3) .copying false).scs
    ([6, 5] : List Nat).Nodup ∧ (st.pool[0]? = some (aLine 1 1 .none) ∧ (aLine 1 1 .none).lid ∉ [6, 5]) ∧
      st.pool[4]? = some ⟨5, none, none⟩ ∧ [6, 5][1]? = some (PoolLine.lid ⟨5, none, none⟩) ∧
      ([none, some ⟨.alert, .cue 255, [0x41#16]⟩] : Page)[1]? = some (some ⟨.alert, .cue 255, [0x41#16]⟩) := by
  decide +kernel

/-- A copy that completes puts style, mark, cue number and text of its page slot into the reserved line (R2, R128). -/
theorem test_page_written :
    ((queued .rehearsal (.linesReplace 1 3 3) .copying false).scs.writePage [5]
      [some ⟨.alert, .cue 255, [0x41#16]⟩]).pool[4]? = some ⟨5, none, some ⟨.alert, .cue 255, [0x41#16]⟩⟩ := by
  decide +kernel

/-- Entries of the rundown link: one in COPYING on story 2, then two behind it, on the stories given. -/
def threeQueued (m : Mode) (second third : EditParams) : State :=
  { script.setQueue [⟨.rundown, 1, .linesInsert 2 none, [5], .copying, false, false⟩,
      ⟨.console, 2, second, [6], .waiting, false, false⟩, ⟨.console, 3, third, [7], .waiting, false, false⟩] with
    scs := { lines4 with pool := lines4.pool ++ [⟨5, none, none⟩, ⟨6, none, none⟩, ⟨7, none, none⟩], nextLid := 8 }
    msc := { script.msc with mode := m } }

/-- Applied behind an entry in COPYING of another story; refused; deferred in ON_AIR with one behind it on its story; and every
entry WAITING behind the one in COPYING. -/
theorem witness_PassTakesOneEntry :
    ((threeQueued .onAir (.linesInsert 1 none) (.linesInsert 1 none)).settled = true ∧
        (threeQueued .rehearsal (.linesInsert 1 none) (.linesInsert 1 none)).ede.queue =
          [⟨.rundown, 1, .linesInsert 2 none, [5], .copying, false, false⟩] ++
            ⟨.console, 2, .linesInsert 1 none, [6], .waiting, false, false⟩ ::
              [⟨.console, 3, .linesInsert 1 none, [7], .waiting, false, false⟩] ∧
        editStory (.linesInsert 2 none) ≠ editStory (.linesInsert 1 none) ∧
        (threeQueued .rehearsal (.linesInsert 1 none) (.linesInsert 1 none)).entryChecks .console (.linesInsert 1 none) 1 =
          none ∧
        (threeQueued .rehearsal (.linesInsert 1 none) (.linesInsert 1 none)).msc.mode ≠ .onAir ∧
        (threeQueued .rehearsal (.linesInsert 9 none) (.linesInsert 1 none)).entryChecks .console (.linesInsert 9 none) 1 =
          some (.unknownStory, 9)) ∧
      ((threeQueued .onAir (.linesInsert 1 none) (.linesInsert 1 none)).entryChecks .console (.linesInsert 1 none) 1 = none ∧
        (threeQueued .onAir (.linesInsert 1 none) (.linesInsert 1 none)).msc.mode = .onAir ∧
        (threeQueued .onAir (.linesInsert 1 none) (.linesInsert 1 none)).meetsGuard (.linesInsert 1 none) = true) ∧
      ((threeQueued .onAir (.linesInsert 2 none) (.linesInsert 2 none)).settled = true ∧
        editStory (.linesInsert 2 none) = editStory (.linesInsert 2 none)) ∧
      (after .queuePass (threeQueued .onAir (.linesInsert 2 none) (.linesInsert 2 none))).ede.queue.map (·.state) =
        [.copying, .waiting, .waiting] := by decide +kernel

/-- The guard window met at its lower edge, and the spans of chapter 7 in the script of four lines. -/
theorem witness_PassTakesOneEntry_span :
    ((script.scs.rundown.map (·.number)).Nodup ∧ script.scs.order.Nodup ∧
        script.scs.rundown = [] ++ ⟨1, none, some 100, [1, 2, 3], false⟩ ::
          [⟨2, none, none, [4], false⟩, ⟨3, none, none, [], false⟩] ∧
        [1, 2, 3] = [1] ++ [2, 3] ++ ([] : List Nat) ∧ script.scs.order = [1, 2] ++ 3 :: [4]) ∧
      script.scs.rundown = [⟨1, none, some 100, [1, 2, 3], false⟩] ++ ⟨2, none, none, [4], false⟩ ::
        ([] ++ ⟨3, none, none, [], false⟩ :: []) ∧
      (script.scs.affectedSpan (.linesInsert 1 (some 3)) = [3, 4] ∧
        script.scs.affectedSpan (.storyMove 3 (some 1)) = [3, 4]) ∧
      script.sce.anchor = some 1 ∧ script.meetsGuard (.linesReplace 1 3 3) = true ∧
      { script with ede := { script.ede with guardBelow := 2 } }.meetsGuard (.linesReplace 1 3 3) = true ∧
      { script with ede := { script.ede with guardBelow := 1 } }.meetsGuard (.linesReplace 1 3 3) = false := by
  decide +kernel

/-- The anchor kept, the anchor replaced, and the anchor set in a script that was empty. -/
theorem witness_ApplyMovesEngine :
    ((queued .rehearsal (.linesReplace 1 3 3) .waiting false).storeOk = true ∧
        (queued .rehearsal (.linesReplace 1 3 3) .waiting false).anchorOk = true ∧
        (queued .rehearsal (.linesReplace 1 3 3) .waiting false).ede.queue =
          [anEntry (.linesReplace 1 3 3) .waiting false] ∧
        (queued .rehearsal (.linesReplace 1 3 3) .waiting false).entryChecks .console (.linesReplace 1 3 3) 1 = none ∧
        1 ∉ lines4.removedBy (.linesReplace 1 3 3)) ∧
      ((queued .rehearsal (.linesReplace 1 1 3) .waiting false).storeOk = true ∧
        (queued .rehearsal (.linesReplace 1 1 3) .waiting false).entryChecks .console (.linesReplace 1 1 3) 1 = none ∧
        1 ∈ lines4.removedBy (.linesReplace 1 1 3) ∧
        lines4.order = [] ++ lines4.removedBy (.linesReplace 1 1 3) ++ [4] ∧
        (after .queuePass (queued .rehearsal (.linesReplace 1 1 3) .waiting false)).sce.anchor = some 5) ∧
      (firstStory.storeOk = true ∧ firstStory.anchorOk = true ∧ firstStory.sce.anchor = none ∧
        firstStory.entryChecks .console (.storyInsert 1 none none none) 1 = none ∧
        (after .queuePass firstStory).sce.anchor = some 1) := by decide +kernel

theorem witness_CancelAndForce :
    (((queued .rehearsal (.linesReplace 1 3 3) .copying false).settled = true ∧
        (queued .rehearsal (.linesReplace 1 3 3) .copying false).linkReady .console = true ∧
        findEntry? (queued .rehearsal (.linesReplace 1 3 3) .copying false).ede.queue .console 7 =
          some (anEntry (.linesReplace 1 3 3) .copying false)) ∧
      (script.settled = true ∧ script.linkReady .rundown = true ∧ findEntry? script.ede.queue .rundown 255 = none) ∧
      (anEntry (.linesReplace 1 3 3) .copying false).state ≠ .deferred ∧
      (queued .onAir (.linesReplace 1 3 3) .deferred false).settled = true ∧
      (queued .onAir (.linesReplace 1 3 3) .deferred false).consoleReady = true ∧
      findEntry? (queued .onAir (.linesReplace 1 3 3) .deferred false).ede.queue .console 7 =
        some (anEntry (.linesReplace 1 3 3) .deferred false) ∧
      waitsBehind (earlierThan (queued .onAir (.linesReplace 1 3 3) .deferred false).ede.queue
        (anEntry (.linesReplace 1 3 3) .deferred false)) (anEntry (.linesReplace 1 3 3) .deferred false) = false ∧
      (queued .onAir (.linesReplace 1 3 3) .deferred false).entryChecks .console (.linesReplace 1 3 3) 1 = none ∧
      (queued .onAir (.linesReplace 9 3 3) .deferred false).entryChecks .console (.linesReplace 9 3 3) 1 =
        some (.unknownStory, 9)) := by
  decide +kernel

theorem witness_LocksAndTargets :
    (script.settled = true ∧ script.consoleReady = true ∧ script.ede.locks[7]? = some LockEntry.reset ∧
        LockEntry.reset.sticky = false ∧ (⟨1, 65535, true, true, true, true⟩ : LockEntry).ok = true) ∧
      (locked.settled = true ∧ locked.consoleReady = true ∧ locked.ede.locks[7]? = some ⟨1, 1, true, false, true, true⟩) ∧
      script.linkReady .rundown = true ∧ (script.scs.story? 1).isSome = true ∧ script.ede.lockedFor .rundown 1 = false ∧
      locked.ede.lockedFor .rundown 1 = true := by decide +kernel

theorem witness_WindowRowsAroundEye :
    (11 : Nat) < 12 ∧ 0 + 2 < 3 ∧ (3 ≤ 3 + 4 ∧ lines4.order.length ≤ 3 + 4 - 3) ∧ 3 ≤ 3 + 3 ∧
      lines4.order[3 + 3 - 3]? = some 4 ∧ lines4.line? 4 = some (aLine 4 2 (.cue 7)) ∧
      (aLine 4 2 (.cue 7)).story = some 2 ∧ (aLine 4 2 (.cue 7)).content.isSome = true := by decide +kernel

theorem witness_StagingCompletes :
    script.wst.buffer = none ∧ (staging 4294967295 true).settled = true ∧ (staging 4294967295 true).wst.buffer = some script.snapshot ∧
      (staging 0 false).settled = true ∧ (staging 0 false).wst.buffer = some script.snapshot := by decide +kernel

/-- Output B as a SLAVE that has sent frame 9, the latest. -/
def slaveB (buffer : Option Frame) : State :=
  { script with
    wst := { script.wst with latest := some ⟨9, script.snapshot⟩, buffer := buffer, sequence := 9 }
    lob := { script.lob with config := ⟨true, .slave, true⟩, lastSent := some 9, packetCounter := 65535 } }

theorem witness_SlotSendsPacket :
    ((script.out .a).sending = none ∧ (script.out .a).config.enable = true ∧ (script.out .a).config.framing = .master ∧
        script.wst.latest = none) ∧
      ((slaveB none).out .b).sending = none ∧ ((slaveB none).out .b).config.enable = true ∧
      ((slaveB none).out .b).config.framing = .slave ∧ (slaveB none).wst.latest = some ⟨9, script.snapshot⟩ ∧
      (after (.frameSyncRequest .b) (slaveB (some script.snapshot))).lob.sending.map (·.kind) = some .underrun := by
  decide +kernel

/-- The blank packet of one row: length 10, then its header and one blank row (section 11.3). -/
theorem test_blank_packet :
    (Packet.bytes ⟨258, .static, ⟨0, 3, none, .running, [.blank]⟩, false⟩).take 13 =
      [0x5A, 0, 10, 1, 2, 2, 0, 0, 3, 1, 0xFF, 0, 0] := by decide +kernel

/-- Output A in the middle of a packet. -/
def sendingA (f : Framing) : State :=
  { script with loa := { script.loa with config := ⟨true, f, false⟩, sending := some ⟨0, .static, script.snapshot, true⟩ } }

theorem witness_SendingOutputSkipsSlots :
    ((sendingA .master).settled = true ∧ ((sendingA .master).out .a).sending = some ⟨0, .static, script.snapshot, true⟩ ∧
        ((sendingA .master).out .a).config.enable = true ∧ ((sendingA .master).out .a).config.framing = .master) ∧
      (sendingA .slave).settled = true ∧ ((sendingA .slave).out .a).config.framing = .slave ∧
      { script with lob := { script.lob with config := ⟨false, .master, false⟩ } }.settled = true ∧
      ({ script with lob := { script.lob with config := ⟨false, .master, false⟩ } }.out .b).config.enable = false := by
  decide +kernel

theorem witness_SettingsImageRoundTrip :
    (Settings.defaults.inRange = true ∧ script.settings.inRange = true) ∧
      ∃ w : Nat → Nat, ∀ i, w i = ((imageOf script.settings.words).getD i 0).toNat := ⟨by decide +kernel, _, fun _ => rfl⟩

/-- The load after the reset line is in flight. -/
def loading : State := after (.resetRelease 3) State.reset

theorem loading_mem : loading.mem = [] := rfl

theorem witness_LoadCompletionTakesImage :
    loading.msc.loading = true ∧
      imageGood (readImage (memoryAtLoad loading.mem (some (List.replicate 179 0xFFFF#16 ++ [0xFF4D#16])))) = true ∧
      imageGood (readImage (memoryAtLoad loading.mem none)) = false ∧
      loading.msc.mode = .loading ∧ loading.aua.holder = none ∧ loading.wst.buffer = none ∧
      { loading.wst with rows := Settings.defaults.rows, eyeRow := Settings.defaults.eyeRow } = loading.wst := by
  rw [loading_mem]
  decide +kernel

/-- A load in SETUP whose defaults change the geometry, a staging in flight or none. -/
theorem witness_LoadCompletionTakesImage_geometry :
    let s := { after (.load .console 1) ready with wst := { ready.wst with rows := 1, eyeRow := 0 } }
    (s.msc.loading = true ∧ s.msc.mode = .setup ∧ s.aua.holder = none ∧
        { s.wst with rows := Settings.defaults.rows, eyeRow := Settings.defaults.eyeRow } ≠ s.wst) ∧
      { loading with wst := (staging 0 false).wst }.msc.loading = true ∧
      { loading with wst := (staging 0 false).wst }.wst.buffer ≠ none := by decide +kernel

/-- The defaults taken at a load's timeout bring SETUP with a pass due and a staging started (R162, R164, R165). -/
theorem test_load_timeout_enters_setup :
    (after (.settingsLoadTimeout 5) loading).ede.passesDue = 1 ∧
      (after (.settingsLoadTimeout 5) loading).wst.buffer.isSome = true ∧
      (after (.settingsLoadTimeout 5) loading).wst.restage = false := by decide +kernel

/-- A save is in flight. -/
def saving : State := after (.save .console 1) ready

theorem witness_SaveStartsAndEnds :
    (ready.settled = true ∧ ready.consoleReady = true ∧ ready.msc.mode = .setup ∧ ready.msc.storeOp = .idle) ∧
      saving.memoryOk = true ∧ saving.msc.storeOp = .save ∧ saving.msc.snapshot.length = 179 ∧
      List.replicate 179 0#16 ≠ saving.msc.snapshot ∧ (List.replicate 179 0#16).length = 179 := by
  decide +kernel

/-- The release; a reset line with no save in flight; and one in a save, at its first write and after its last. -/
theorem witness_ResetLineAndRelease :
    (State.reset.settled = true ∧ State.reset.msc.resetLine = true ∧ State.reset.msc.storeOp = .load) ∧
      moving.msc.storeOp ≠ .save ∧ saving.memoryOk = true ∧ saving.msc.storeOp = .save ∧
      saving.msc.snapshot.length = 179 ∧ 0 ≤ 180 ∧ 180 ≤ 180 ∧ 181 ≤ 181 := by decide +kernel

/-- A reset line in a save leaves no good image, however few words the command counts (R166). -/
theorem test_reset_in_save_fails_check :
    imageGood (readImage (after (.resetLine 0) saving).mem) = false := by decide +kernel

/-- The six changes MODE makes (R161). -/
def sixChanges : List (Mode × Mode) :=
  [(.setup, .rehearsal), (.setup, .diagnostic), (.rehearsal, .setup), (.rehearsal, .onAir), (.onAir, .rehearsal),
    (.diagnostic, .setup)]

theorem witness_ModeChanges :
    ((script.settled = true ∧ script.consoleReady = true ∧ script.msc.storeOp = .idle ∧ script.msc.mode = .rehearsal) ∧
        (Mode.rehearsal, Mode.onAir) ∈ sixChanges ∧ (Mode.rehearsal, Mode.setup) ∈ sixChanges ∧
        (Mode.rehearsal, Mode.diagnostic) ∉ sixChanges ∧ (Mode.rehearsal, Mode.loading) ∉ sixChanges) ∧
      (ready.settled = true ∧ ready.consoleReady = true ∧ ready.msc.storeOp = .idle ∧ ready.msc.mode = .setup ∧
        ready.aua.holder = none) ∧
      (onAir.settled = true ∧ onAir.consoleReady = true ∧ onAir.msc.mode = .onAir) ∧
      (playing true (some 0) 1).settled = true ∧ (playing true (some 0) 1).consoleReady = true ∧
      (playing true (some 0) 1).msc.mode = .diagnostic := by decide +kernel

/-- From SETUP to REHEARSAL the choice among candidates gives the holder, and a lock its source (R68). -/
theorem test_rehearsal_grants :
    (after (.mode .console 1 2) { ready with sce := { ready.sce with manualSpeed := 5 } }).aua.holder = some .console ∧
      (after (.mode .console 1 2) { ready with aua := { ready.aua with lock := some (.hand 3) } }).aua.holder =
        some (.hand 3) := by decide +kernel

/-- A stop of the player that changes no input of a port's source, and one that does. -/
theorem witness_PlayerCommands_stop :
    (∀ n, ((after (.dgrn .console 1 1 none) (playing true (some 0) 2)).port n).inputs =
        ((playing true (some 0) 2).port n).inputs) ∧
      ∃ n, ((after (.dgrn .console 1 1 none) (after .playerTick (playing true (some 0) 2))).port n).inputs ≠
        ((after .playerTick (playing true (some 0) 2)).port n).inputs := by decide +kernel

theorem witness_PlayerCommands :
    (ready.settled = true ∧ ready.consoleReady = true ∧ ready.msc.mode = .setup ∧ 255 + 1 ≤ 256 ∧
        [(⟨3, 65535, Buttons.released, 0⟩ : PlayerArg)].all (·.wellFormed) = true ∧
        List.Forall₂ (fun (a : PlayerArg) (e : PlayerEntry) => e.port.val = a.port ∧ e.deflection = min a.deflection 4095 ∧
          e.buttons = a.buttons ∧ e.duration = max 1 (min a.duration 255))
          [⟨3, 65535, Buttons.released, 0⟩] [⟨3, 4095, Buttons.released, 1⟩]) ∧
      ((playing false (some 0) 0).settled = true ∧ (playing false (some 0) 0).consoleReady = true ∧
        (playing false (some 0) 0).msc.mode = .diagnostic ∧ (playing false (some 0) 0).msc.player.length ≠ 0 ∧
        (playing false (some 0) 0).msc.player.running = false) ∧
      ((playing true (some 0) 2).settled = true ∧ (playing true (some 0) 2).consoleReady = true ∧
        (playing true (some 0) 2).msc.player.running = true ∧ (playing true (some 0) 2).msc.player.cursor = some 0 ∧
        2 ≤ (playing true (some 0) 2).msc.player.remaining ∧ (playing true (some 0) 1).msc.player.remaining = 1) ∧
      (playing true none 0).settled = true ∧ (playing true none 0).msc.player.cursor = none := by decide +kernel

theorem witness_RequestPayloadRoundTrip :
    (Request.eopn (some (.storyInsert 65535 (some 1) (some [0x41#16]) (some 4294967295))) 64).wellFormed = true ∧
      (Request.mspd (-32768)).wellFormed = true ∧ (Request.dgrn 0 (some true)).wellFormed = true := by decide +kernel

/-- The console link with a number of frames waiting and of responses queued behind one on the line. -/
def crowded (frames responses : Nat) : State :=
  { script with
    cli := { script.cli with
      line := some ⟨.response, 0, [], []⟩
      receiveQueue := List.replicate frames (requestFrame 1 .frze)
      responseQueue := List.replicate responses ⟨1, Mnem.frze.bytes, .busy⟩ } }

/-- The console link in the middle of a frame. -/
def midFrame : State := { script with cli := { script.cli with receiver := .assembling [0] } }

theorem witness_FramesReceived :
    ((crowded 3 8).settled = true ∧ ((crowded 3 8).link .console).receiver = .hunting ∧ Mnem.frze.bytes.length = 4 ∧
        ((crowded 3 8).link .console).receiveQueue.length < 4) ∧
      ((crowded 4 7).settled = true ∧ 4 ≤ ((crowded 4 7).link .console).receiveQueue.length ∧
        ((crowded 4 7).link .console).responsePlaces < 8) ∧
      ((crowded 4 8).settled = true ∧ 8 ≤ ((crowded 4 8).link .console).responsePlaces) ∧
      ((0x03 : Byte) ≠ 0x01 ∧ ([0, 0] : List Byte) ≠ u16 (crc16 (u16 6 ++ [0x01, 0] ++ Mnem.frze.bytes ++ [])).toNat ∧
        (List.replicate 1020 (0 : Byte)).length ≤ 1020) ∧
      (5 < 6 ∧ 1026 < 1027 ∧ 65535 < 65536 ∧ ∀ b ∈ ([0x5A, 0x00] : List Byte), b ≠ 0xA5) ∧
      midFrame.settled = true ∧ (midFrame.link .console).receiver = .assembling [0] := by decide +kernel

theorem witness_QueuedRequestIsCommand :
    (Instr.frze .console 1).request? = some (.console, 1, .frze) ∧ Request.frze.wellFormed = true ∧
      ((crowded 1 7).link .console).receiveQueue = [requestFrame 1 .frze] ∧
      ((crowded 1 7).link .console).canExecute = true ∧ 0 ≤ (crowded 1 7).tbp.now ∧
      ∀ n i v w, Instr.frze .console 1 = .parm .console 1 n i v w → w ≤ (crowded 1 7).tbp.now := by
  refine ⟨by decide +kernel, by decide +kernel, by decide +kernel, by decide +kernel, by decide +kernel, fun n i v w h => ?_⟩
  cases h

theorem witness_InterfaceAnswersFirst :
    (loading.settled = true ∧ (loading.link .console).free = true ∧ loading.msc.mode = .loading ∧
        (Instr.frze .console 1).request? = some (.console, 1, .frze) ∧ Request.frze.mnem ≠ .stat) ∧
      (script.settled = true ∧ (script.link .rundown).free = true ∧ script.msc.mode ≠ .loading ∧
        (Instr.parm .rundown 1 1 none 0 0).request? = some (.rundown, 1, .parm 1 none 0) ∧
        Mnem.parm ∉ [Mnem.eopn, .elin, .eabn, .ecmt, .qcan, .tgts, .rdln, .rdrn, .stat, .nten]) ∧
      ∀ n i v w, Instr.parm .rundown 1 1 none 0 0 = .parm .rundown 1 n i v w → w ≤ script.tbp.now := by
  refine ⟨by decide +kernel, by decide +kernel, fun n i v w h => ?_⟩
  cases h; decide +kernel

/-- The reference selection on, the timebase in a state, its last tick long past. -/
def selected (st : RefState) : State :=
  { script with tbp := { script.tbp with refSelect := true, state := st, lastTick := 0, now := 119881 } }

theorem witness_ParameterWrites :
    (script.settled = true ∧ script.consoleReady = true ∧ 4294967295 < 4294967296 ∧ 0 ≤ script.tbp.now ∧
        script.tbp.refSelect = false ∧ (1 : Nat) ≠ 0 ∧ (0 : Nat) = script.tbp.rate.code) ∧
      ((selected .lost).settled = true ∧ (selected .lost).consoleReady = true ∧ (selected .lost).tbp.refSelect = true ∧
        (selected .lost).tbp.lastTick + (selected .lost).tbp.rate.period < (selected .lost).tbp.now ∧
        2 = Rate.r60.code ∧ Rate.r60 ≠ (selected .lost).tbp.rate) ∧
      (selected .locked).settled = true ∧ (selected .locked).tbp.state = .locked := by decide +kernel

theorem witness_PortAndOutputParameters :
    (script.settled = true ∧ script.consoleReady = true ∧ 4294967295 < 4294967296 ∧ script.msc.mode ≠ .onAir) ∧
      (onAir.settled = true ∧ onAir.consoleReady = true ∧ onAir.msc.mode = .onAir) ∧
      ((withPort (portIn .live 0 4)).settled = true ∧ (withPort (portIn .live 0 4)).consoleReady = true ∧
        ((withPort (portIn .live 0 4)).port 1).state ≠ .disabled ∧
        (withPort (portIn .disabled 0 0)).consoleReady = true ∧
        ((withPort (portIn .disabled 0 0)).port 1).state = .disabled) ∧
      (1 = max 1 (min 0 24) ∧ 0 = min script.wst.eyeRow (1 - 1)) ∧ 24 = max 1 (min 25 24) ∧
      11 = min 4294967295 (script.wst.rows - 1) := by decide +kernel

theorem witness_ReadsReportState :
    script.settled = true ∧ (script.link .rundown).free = true ∧ (script.link .console).free = true ∧
      (Instr.pget .console 1 22 (some 7)).request? = some (.console, 1, .pget 22 (some 7)) ∧
      (Request.pget 22 (some 7)).mnem = .pget ∧ script.msc.mode ≠ .loading ∧ script.consoleReady = true ∧
      script.ede.locks[7]? = some LockEntry.reset := by decide +kernel

/-- What the slots of STAT may be written with: a page set of eight bytes, and the layout of a slot. -/
theorem witness_ReadsReportState_slots :
    (∀ page : Page, (pageSet page).length = 8 ∧ ∀ k, k < 64 →
        ((pageSet page).getD (k / 8) 0).getLsbD (k % 8) = (page.getD k none).isSome) ∧ EditSlot.status .closed = [0, 0, 0, 0] ∧
      (∀ (e : EditParams) (k : Nat) (page : Page),
        EditSlot.status (.opened e k page) = [1, 1] ++ u8 e.code ++ [1] ++ u16 k ++ [1] ++ pageSet page ∧
        EditSlot.status (.copying e k page) = [2, 1] ++ u8 e.code ++ [1] ++ u16 k ++ [1] ++ pageSet page) :=
  ⟨fun page => ⟨rfl, pageSet_bit page⟩, rfl, fun _ _ _ => ⟨rfl, rfl⟩⟩

theorem witness_NoticeTables :
    script.settled = true ∧ script.linkReady .rundown = true ∧
      ∀ p ∈ [(5, false), (7, true), (5, true)], p.1 < 256 ∧ ∃ e ∈ (script.link .rundown).notices, e.kind.number = p.1 := by
  decide +kernel

/-- The console link with CUE_TIMER pending and enabled behind a frame on the line, and no response waiting. -/
def noticing (enabled : Bool) : State :=
  { crowded 0 0 with
    cli := { (crowded 0 0).cli with
      notices := (crowded 0 0).cli.notices.map fun e =>
        if e.kind = .cueTimer then { e with pending := true, count := 255, enabled := enabled } else e } }

theorem witness_OutgoingLine :
    ((crowded 0 8).settled = true ∧ ((crowded 0 8).link .console).line = some ⟨.response, 0, [], []⟩ ∧
        ((crowded 0 8).link .console).responseQueue = ⟨1, Mnem.frze.bytes, .busy⟩ :: List.replicate 7
          ⟨1, Mnem.frze.bytes, .busy⟩) ∧
      ((noticing true).settled = true ∧ ((noticing true).link .console).responseQueue = [] ∧
        (((noticing true).link .console).notices.find? (fun x => x.pending && x.enabled)).isSome = true) ∧
      ((noticing false).settled = true ∧
        ∀ x ∈ ((noticing false).link .console).notices, x.pending = false ∨ x.enabled = false) ∧
      ({ noticing true with cli := { (noticing true).cli with line := none } }.link .console).line = none ∧
      ({ crowded 0 8 with cli := { (crowded 0 8).cli with line := none } }.link .console).line = none ∧
      ({ crowded 0 8 with cli := { (crowded 0 8).cli with line := none } }.link .console).responseQueue =
        ⟨1, Mnem.frze.bytes, .busy⟩ :: List.replicate 7 ⟨1, Mnem.frze.bytes, .busy⟩ := by decide +kernel

/-- A frame cut by a bad length, then a whole request behind bytes that are no start marker (R171, R183). -/
theorem test_bad_length_then_request :
    (after (.linkFrameReceived .console ([0xA5, 0, 5, 1, 2] ++ LinkFrame.bytes ⟨.request, 1, Mnem.frze.bytes, []⟩))
      script).cli.errors = 1 ∧
      (after (.linkFrameReceived .console ([0xA5, 0, 5, 1, 2] ++ LinkFrame.bytes ⟨.request, 1, Mnem.frze.bytes, []⟩))
        script).cli.receiveQueue.length = 1 := by decide +kernel

end Sys2Proof.Tests
end

/-! PROOFS. The scroll engine (chapter 2): the slew rule (R29), and FRZE, THAW and RELS with the buttons that make the same
changes of engine (R37 to R39). -/

namespace Sys2Proof.Machine

/-! ### The slew rule (R29) -/

theorem toward_of_near {v target : Int} {limit : Nat} (h : (target - v).natAbs ≤ limit) :
    toward v target limit = target := if_pos h

theorem toward_of_far {v target : Int} {limit : Nat} (h : limit < (target - v).natAbs) :
    toward v target limit = if v < target then v + limit else v - limit := if_neg (Nat.not_le.2 h)

/-- A value moved toward a target stays on the side of 0 that both lie on. -/
theorem toward_nonneg {v target : Int} (hv : 0 ≤ v) (ht : 0 ≤ target) (limit : Nat) : 0 ≤ toward v target limit := by
  unfold toward; split <;> [exact ht; (split <;> omega)]

theorem toward_nonpos {v target : Int} (hv : v ≤ 0) (ht : target ≤ 0) (limit : Nat) : toward v target limit ≤ 0 := by
  unfold toward; split <;> [exact ht; (split <;> omega)]

/-- The speed and its target are both non-zero and of opposite signs (R29 case 1). -/
def Opposed (v target : Int) : Prop := (0 < v ∧ target < 0) ∨ (v < 0 ∧ 0 < target)

theorem slew_opposed {v target : Int} (h : Opposed v target) (a b : Nat) : slew v target a b = toward v 0 b := if_pos h

theorem slew_slowing {v target : Int} (h : ¬Opposed v target) (hs : target.natAbs < v.natAbs) (a b : Nat) :
    slew v target a b = toward v target b := (if_neg h).trans (if_pos hs)

theorem slew_speeding {v target : Int} (h : ¬Opposed v target) (hs : v.natAbs ≤ target.natAbs) (a b : Nat) :
    slew v target a b = toward v target a := (if_neg h).trans (if_neg (Nat.not_lt.2 hs))

/-- Each case of the rule moves v toward a value that is not of the opposite sign: toward 0 in case 1, else toward the
target. -/
theorem slew_toward (v target : Int) (a b : Nat) :
    ∃ goal limit, slew v target a b = toward v goal limit ∧ (0 < v → 0 ≤ goal) ∧ (v < 0 → goal ≤ 0) := by
  by_cases h : Opposed v target
  · exact ⟨0, b, slew_opposed h a b, fun _ => le_rfl, fun _ => le_rfl⟩
  · have hp : 0 < v → 0 ≤ target := fun hv => Int.not_lt.1 fun ht => h (.inl ⟨hv, ht⟩)
    have hn : v < 0 → target ≤ 0 := fun hv => Int.not_lt.1 fun ht => h (.inr ⟨hv, ht⟩)
    rcases Nat.lt_or_ge target.natAbs v.natAbs with hs | hs
    · exact ⟨target, b, slew_slowing h hs a b, hp, hn⟩
    · exact ⟨target, a, slew_speeding h hs a b, hp, hn⟩

/-- No step changes the sign of v directly. -/
theorem slew_keeps_sign (v target : Int) (a b : Nat) :
    (0 < v → 0 ≤ slew v target a b) ∧ (v < 0 → slew v target a b ≤ 0) := by
  obtain ⟨goal, limit, heq, hp, hn⟩ := slew_toward v target a b
  rw [heq]
  exact ⟨fun hv => toward_nonneg hv.le (hp hv) limit, fun hv => toward_nonpos hv.le (hn hv) limit⟩

/-- Case 1: v goes to 0 by b and does not pass it. -/
theorem slew_opposed_braking {v target : Int} (h : Opposed v target) (a b : Nat) :
    (v.natAbs ≤ b → slew v target a b = 0) ∧
      (b < v.natAbs → (slew v target a b).natAbs = v.natAbs - b ∧ (0 < slew v target a b ↔ 0 < v)) := by
  rw [slew_opposed h]
  refine ⟨fun hb => toward_of_near (by omega), fun hb => ?_⟩
  rw [toward_of_far (by omega)]
  split <;> omega

/-- Settles O15: the three cases of the rule, each a move by `toward`, and the sign that every one of them keeps. -/
theorem slewRule : Obligations.SlewRule := by
  intro v target a b
  obtain ⟨hpos, hneg⟩ := slew_keeps_sign v target a b
  refine ⟨fun h => slew_opposed_braking h a b, fun h hs => ?_, fun h hs => ?_, hpos, hneg⟩
  · rw [slew_slowing h hs]
    exact ⟨fun hb => toward_of_near (by omega), fun hb => toward_of_far (by omega)⟩
  · rw [slew_speeding h hs]
    exact ⟨toward_of_near, toward_of_far⟩

/-! ### Freeze, thaw and release (R27, R37 to R39) -/

theorem ScrollEngine.toggleFreeze_eq (e : ScrollEngine) : e.toggleFreeze =
    if e.state = .frozen then { e with state := .running } else { e with state := .frozen, velocity := 0 } := by
  cases h : e.state <;> simp [ScrollEngine.toggleFreeze, h]

theorem ScrollEngine.thaw_eq (e : ScrollEngine) :
    e.thaw = { e with state := if e.state = .frozen then .running else e.state } := by
  obtain ⟨_, _, _, state, _, _, _, _, _⟩ := e; cases state <;> rfl

theorem ScrollEngine.release_eq (e : ScrollEngine) :
    e.release = { e with state := if e.state = .held then .running else e.state } := by
  obtain ⟨_, _, _, state, _, _, _, _, _⟩ := e; cases state <;> rfl

theorem ScrollEngine.press_holdToggle (e : ScrollEngine) : e.press ⟨true, false, false, false⟩ = e.toggleFreeze :=
  rfl

theorem ScrollEngine.press_go (e : ScrollEngine) : e.press ⟨false, true, false, false⟩ = e.release := rfl

/-- A toggle of the freeze always changes the state: it freezes, or it ends FROZEN. -/
theorem ScrollEngine.toggleFreeze_state_ne (e : ScrollEngine) : e.toggleFreeze.state ≠ e.state := by
  rw [ScrollEngine.toggleFreeze_eq]
  split
  · next h => simp [h]
  · next h => exact Ne.symm h

/-- Two toggles leave the state as it was, but that HELD has become RUNNING (R37). -/
theorem ScrollEngine.toggleFreeze_twice_state (e : ScrollEngine) :
    e.toggleFreeze.toggleFreeze.state = if e.state = .held then .running else e.state := by
  cases h : e.state <;> simp [ScrollEngine.toggleFreeze, h]

/-! ### An engine at rest -/

theorem ScrollEngine.toggleFreeze_velocity {e : ScrollEngine} (h : e.velocity = 0) : e.toggleFreeze.velocity = 0 := by
  rw [ScrollEngine.toggleFreeze_eq]; split <;> [exact h; rfl]

@[simp] theorem ScrollEngine.release_velocity (e : ScrollEngine) : e.release.velocity = e.velocity := by
  rw [ScrollEngine.release_eq]

/-- The buttons give an engine at rest no velocity (R27). -/
theorem ScrollEngine.press_velocity {e : ScrollEngine} (h : e.velocity = 0) (b : Edges) : (e.press b).velocity = 0 := by
  have toggled : (if b.holdToggle then e.toggleFreeze else e).velocity = 0 := by
    split <;> [exact toggleFreeze_velocity h; exact h]
  show (if b.go then _ else _ : ScrollEngine).velocity = 0
  split <;> simp [toggled]

/-- The step that follows a rest slews from 0 (R24, R29). -/
theorem State.movesBy_at_rest {t : State} (h : t.sce.velocity = 0) {p : Nat} {v : Int} (hm : t.movesBy p v) :
    v = slew 0 (t.target p) t.sce.accel t.sce.decel := by
  obtain ⟨_, _, -, -, -, -, -, -, hv⟩ := hm
  rw [← hv, show t.pressed.velocity = 0 from ScrollEngine.press_velocity h _]

/-- FROZEN and HELD are states of rest (R24). -/
theorem State.stillOk_velocity {s : State} (h : s.stillOk = true) (hs : s.sce.state ≠ .running) :
    s.sce.velocity = 0 := by
  simpa [State.stillOk, hs] using h

/-! ### The target of an inactive holder (R28, R54) -/

/-- An inactive hand unit offers the demand 0, whether its port counts or not. -/
theorem State.handTarget_inactive {s : State} {n : Fin 4} (h : s.active (.hand n) = false) : s.handTarget n = 0 := by
  have hd : (s.port n).latch.demand = 0 := by
    simp only [State.active, Bool.or_eq_false_iff, decide_eq_false_iff_not, not_not] at h
    exact h.1
  rw [State.handTarget, hd, ite_self]

theorem State.autoDemand_inactive {s : State} (h : s.active .auto = false) (p : Nat) : s.autoDemand p = 0 := by
  have hm : s.tbp.autoMode = .off := by simpa [State.active] using h
  simp [State.autoDemand, hm]

/-- T is 0 where no source holds, or the holder is inactive. -/
theorem State.target_inactive {s : State} (h : ∀ x, s.aua.holder = some x → s.active x = false) (p : Nat) :
    s.target p = 0 := by
  unfold State.target
  split
  · rfl
  · cases hh : s.aua.holder with
    | none => rfl
    | some x =>
      have hx := h x hh
      cases x with
      | console => simpa [State.active] using hx
      | hand n => exact State.handTarget_inactive hx
      | auto => simp [State.autoDemand_inactive hx]

/-! ### The hold catch (R31) -/

/-- Every top in (p, q] lies beyond p. -/
theorem Store.topsIn_beyond {st : Store} {p q : Nat} {t : Nat × Nat} (h : t ∈ st.topsIn p q) : p < t.1 := by
  obtain ⟨k, -, hk⟩ := List.mem_filterMap.1 h
  obtain ⟨lid, -, rfl⟩ := Option.map_eq_some_iff.1 hk
  simp only [topOf, Config.unitsPerLine]
  omega

theorem Store.landAt_held {st : Store} {q : Nat} {v : Int} {x : Landing} (h : st.landAt q v = some x) :
    x.held = false := by
  obtain ⟨lid, -, rfl⟩ := Option.map_eq_some_iff.1 h
  rfl

/-- A hold catch stops beyond the position it starts from, so that a line under the eye does not hold again. -/
theorem Store.landForward_held_beyond {st : Store} {p v : Nat} {x : Landing} (h : st.landForward p v = some x)
    (hx : x.held = true) : p < x.stop := by
  unfold Store.landForward at h
  split at h
  · next t ht =>
    obtain rfl := Option.some.inj h
    exact Store.topsIn_beyond (List.mem_of_find?_eq_some ht)
  · have : x.held = false := by split at h <;> exact Store.landAt_held h
    rw [hx] at this
    cases this

/-! ### The requests (R37 to R39) -/

/-- A console request has changed the engine to `e` without moving the eye: the answer is the state taken, and the change is
published exactly where the state differs (R47). -/
def ChangedScroll (tag : Byte) (m : Mnem) (e : ScrollEngine) (s t : State) : Prop :=
  t.sce = e ∧ t.cli = answeredWith s.cli tag m (.ok (u8 t.sce.state.code)) ∧
    (t.sce.state ≠ s.sce.state → Published s t) ∧ (t.sce.state = s.sce.state → t.wst = s.wst) ∧
    SameBut [.sce, .wst, .cli] s t

/-- What publishing a change of engine and answering it leave alone. -/
theorem State.publishSince_sameBut (s : State) (e : ScrollEngine) (i : LinkIface) :
    SameBut [.sce, .wst, .cli] s { ({ s with sce := e } : State).publishSince s.sce with cli := i } := by
  intro b hb
  cases b <;> simp [Block.same] at hb ⊢

/-- A request whose owner changes the engine's state and leaves the eye where it is (R37 to R39). -/
theorem exec_changeScroll {c : Instr} {tag : Byte} {r : Request} {s : State} {e : ScrollEngine}
    (hs : s.settled = true) (hr : s.consoleReady = true) (hc : c.request? = some (.console, tag, r))
    (hi : Instr.instantsPast c s.tbp.now) (hw : r.wellFormed = true)
    (hserve : serve .console tag r s =
      (({ s with sce := e } : State).publishSince s.sce, some (.ok (u8 e.state.code))))
    (ha : e.anchor = s.sce.anchor) (hf : e.fraction = s.sce.fraction) :
    ∃ t, exec c s = .next t ∧ ChangedScroll tag r.mnem e s t := by
  refine ⟨_, exec_console_plain hs hr hc hi hw hserve (by simp) (by simp), by simp, by simp, fun hst => ?_,
    fun hst => ?_, s.publishSince_sameBut e _⟩
  · have hne : e.state ≠ s.sce.state := by simpa using hst
    rw [State.publishSince_changed (by simp [hne])]
    exact State.trigger_published (u := { s with sce := e }) rfl
  · have heq : e.state = s.sce.state := by simpa using hst
    rw [State.publishSince_same ha hf heq]

theorem exec_frze {s : State} (hs : s.settled = true) (hr : s.consoleReady = true) (tag : Byte) :
    ∃ t, exec (.frze .console tag) s = .next t ∧ ChangedScroll tag .frze s.sce.toggleFreeze s t := by
  refine exec_changeScroll (r := .frze) hs hr rfl (instantsPast_of_ne (by simp)) rfl rfl ?_ ?_ <;>
    rw [ScrollEngine.toggleFreeze_eq] <;> split <;> rfl

theorem exec_thaw {s : State} (hs : s.settled = true) (hr : s.consoleReady = true) (tag : Byte) :
    ∃ t, exec (.thaw .console tag) s = .next t ∧ ChangedScroll tag .thaw s.sce.thaw s t := by
  refine exec_changeScroll (r := .thaw) hs hr rfl (instantsPast_of_ne (by simp)) rfl rfl ?_ ?_ <;>
    rw [ScrollEngine.thaw_eq]

theorem exec_rels {s : State} (hs : s.settled = true) (hr : s.consoleReady = true) (tag : Byte) :
    ∃ t, exec (.rels .console tag) s = .next t ∧ ChangedScroll tag .rels s.sce.release s t := by
  refine exec_changeScroll (r := .rels) hs hr rfl (instantsPast_of_ne (by simp)) rfl rfl ?_ ?_ <;>
    rw [ScrollEngine.release_eq]

/-- Settles O21: each request is one change of engine, answered and published by `exec_changeScroll`; the buttons make the
same changes, a state of rest keeps v 0, and a hold catch lies beyond the eye. -/
theorem freezeThawRelease : Obligations.FreezeThawRelease := by
  refine ⟨fun tag s hs hr => ⟨?frze, ?thaw, ?rels⟩, ?twice, fun s p h => State.target_inactive h p,
    fun _ _ _ _ h hx => Store.landForward_held_beyond h hx⟩
  case twice =>
    intro e
    rw [ScrollEngine.press_holdToggle, ScrollEngine.press_holdToggle, ScrollEngine.toggleFreeze_twice_state]
  case frze =>
    obtain ⟨t, hexec, hsce, hcli, hpub, -, hsame⟩ := exec_frze hs hr tag
    have hne : t.sce.state ≠ s.sce.state := hsce ▸ s.sce.toggleFreeze_state_ne
    exact ⟨t, hexec, hsce.trans s.sce.toggleFreeze_eq, hsce.trans s.sce.press_holdToggle.symm, hcli, hpub hne, hsame⟩
  case thaw =>
    obtain ⟨t, hexec, hsce, hcli, hpub, hkeep, hsame⟩ := exec_thaw hs hr tag
    rw [ScrollEngine.thaw_eq] at hsce
    have hrest : s.stillOk = true → s.sce.state = .frozen → t.sce.velocity = 0 := fun hstill hst => by
      rw [hsce]; exact State.stillOk_velocity hstill (by simp [hst])
    exact ⟨t, hexec, hsce,
      fun hstill hst => ⟨hrest hstill hst, fun _ _ => State.movesBy_at_rest (hrest hstill hst)⟩,
      hcli, fun hst => hpub (by simp [hsce, hst]), fun hst => hkeep (by simp [hsce, hst]), hsame⟩
  case rels =>
    obtain ⟨t, hexec, hsce, hcli, hpub, hkeep, hsame⟩ := exec_rels hs hr tag
    have hgo : t.sce = s.sce.press ⟨false, true, false, false⟩ := hsce.trans s.sce.press_go.symm
    rw [ScrollEngine.release_eq] at hsce
    have hrest : s.stillOk = true → s.sce.state = .held → t.sce.velocity = 0 := fun hstill hst => by
      rw [hsce]; exact State.stillOk_velocity hstill (by simp [hst])
    exact ⟨t, hexec, hsce, hgo, fun hstill hst _ _ => State.movesBy_at_rest (hrest hstill hst),
      hcli, fun hst => hpub (by simp [hsce, hst]), fun hst => hkeep (by simp [hsce, hst]), hsame⟩

end Sys2Proof.Machine

/-! PROOFS. The demand shaper (chapter 5): its offset, its magnitude inside and beyond the curve's segments, and the demand
inside and outside the dead-band (R94 to R97). -/

namespace Sys2Proof.Machine

/-- Taking a pedal's negative offset as 0 is the maximum with 0 (R94). -/
theorem shapeOffset_eq (p : Shaping) (kind : UnitKind) (r : Nat) :
    shapeOffset p kind r =
      if kind = .pedal ∧ (r : Int) - p.centre < 0 then 0 else (r : Int) - p.centre := by
  unfold shapeOffset
  by_cases hk : kind = .pedal
  · by_cases hneg : (r : Int) - p.centre < 0
    · simpa [hk, hneg] using hneg.le
    · simpa [hk, hneg] using Int.not_lt.1 hneg
  · simp [hk]

theorem shapeMagnitude_saturated {p : Shaping} {x : Nat} (h : 2048 ≤ x) :
    shapeMagnitude p x = curvePoint p 32 := if_pos h

theorem shapeMagnitude_interpolated {p : Shaping} {x : Nat} (h : x < 2048) :
    shapeMagnitude p x = curvePoint p (x / 64) +
      Int.tdiv (((curvePoint p (x / 64 + 1) : Int) - curvePoint p (x / 64)) * (x % 64 : Nat)) 64 :=
  if_neg (Nat.not_le.2 h)

theorem shape_within_deadband {p : Shaping} {kind : UnitKind} {r : Nat}
    (h : (shapeOffset p kind r).natAbs ≤ p.deadband) : shape p kind r = 0 := if_pos h

/-- Outside the dead-band the sign of the offset is kept without the reverse flag and inverted with it (R97). -/
theorem shape_outside_deadband {p : Shaping} {kind : UnitKind} {r : Nat} {e m : Int} (he : shapeOffset p kind r = e)
    (hm : shapeMagnitude p (e.natAbs - p.deadband) = m) (h : p.deadband < e.natAbs) :
    shape p kind r = if p.reverse then (if 0 < e then -m else m) else (if 0 < e then m else -m) := by
  subst he hm
  refine (if_neg (Nat.not_le.2 h)).trans ?_
  cases hrev : p.reverse
  case false => simp
  case true => by_cases hpos : 0 < shapeOffset p kind r <;> simp [hpos]

/-- Settles O28: the stated e is the shaper's offset and the stated m its magnitude for the excess, beyond the last segment
and within one; the demand is then the dead-band's 0 or m with its direction. -/
theorem demandOfDeflection : Obligations.DemandOfDeflection := by
  rintro p kind r x i f e m he rfl rfl rfl hm
  have hoffset : shapeOffset p kind r = e := (shapeOffset_eq p kind r).trans he.symm
  have hmagnitude : shapeMagnitude p (e.natAbs - p.deadband) = m := by
    rcases Nat.lt_or_ge (e.natAbs - p.deadband) 2048 with hx | hx
    · exact (shapeMagnitude_interpolated hx).trans (hm.trans (if_neg (Nat.not_le.2 hx))).symm
    · exact (shapeMagnitude_saturated hx).trans (hm.trans (if_pos hx)).symm
  exact ⟨fun h => shape_within_deadband (hoffset ▸ h), shape_outside_deadband hoffset hmagnitude⟩

end Sys2Proof.Machine

/-! PROOFS. The window (chapter 8): what one row shows before the script, past it and at a line, and which ordinal row k has
(R145). -/

namespace Sys2Proof.Machine

/-! ### One row, by its ordinal -/

theorem windowRow_of_neg (st : Store) {o : Int} (h : o < 0) : windowRow st o = .blank := if_pos h

/-- No line has an ordinal from L on, so the row there is blank. -/
theorem windowRow_of_length_le {st : Store} {n : Nat} (h : st.order.length ≤ n) : windowRow st (n : Int) = .blank := by
  have hnone : st.lineAt? n = none := List.getElem?_eq_none h
  simp [windowRow, hnone]

theorem windowRow_of_line {st : Store} {n lid story : Nat} {l : PoolLine} {c : LineContent}
    (hn : st.order[n]? = some lid) (hl : st.line? lid = some l) (hs : l.story = some story)
    (hc : l.content = some c) : windowRow st (n : Int) = .line lid story c.style c.mark c.text := by
  have hat : st.lineAt? n = some lid := hn
  cases l
  cases hs
  cases hc
  simp [windowRow, hat, hl]

/-! ### The rows of the window -/

theorem windowRows_empty_anchor (st : Store) {rows k : Nat} (eyeRow : Nat) (h : k < rows) :
    (windowRows st none rows eyeRow)[k]? = some .blank :=
  List.getElem?_replicate_of_lt h

/-- One map over the row numbers; in the model each number of the range is first cast to `Int` on its own. -/
theorem windowRows_anchored (st : Store) (a rows eyeRow : Nat) :
    windowRows st (some a) rows eyeRow =
      (List.range rows).map fun k : Nat => windowRow st ((a : Int) - eyeRow + k) := by
  have hlift : (List.range rows >>= fun k : Nat => pure (k : Int)) =
      (List.range rows).map fun k : Nat => (k : Int) := bind_pure_comp ..
  rw [windowRows, hlift, List.map_map]
  rfl

/-- Row k stands at ordinal A − E + k, which may lie below 0. -/
theorem windowRows_at_anchor (st : Store) {rows k : Nat} (a eyeRow : Nat) (h : k < rows) :
    (windowRows st (some a) rows eyeRow)[k]? = some (windowRow st ((a : Int) - eyeRow + k)) := by
  rw [windowRows_anchored, List.getElem?_map, List.getElem?_range h, Option.map_some]

/-- From the script's first line on, the ordinal of row k is the natural number A + k − E. -/
theorem windowRows_from_first (st : Store) {rows k a eyeRow : Nat} (h : k < rows) (he : eyeRow ≤ a + k) :
    (windowRows st (some a) rows eyeRow)[k]? = some (windowRow st ((a + k - eyeRow : Nat) : Int)) := by
  have hordinal : (a : Int) - eyeRow + k = (a + k - eyeRow : Nat) := by omega
  rw [windowRows_at_anchor st a eyeRow h, hordinal]

/-- Settles O42: the rows above the script by their negative ordinal, the others by `windowRows_from_first`, past the last
line or at a line. -/
theorem windowRowsAroundEye : Obligations.WindowRowsAroundEye := by
  intro st rows eyeRow k hk
  refine ⟨windowRows_empty_anchor st eyeRow hk, fun a => ⟨fun habove => ?above, fun he hend => ?past, ?line⟩⟩
  case above =>
    have hneg : (a : Int) - eyeRow + k < 0 := by omega
    rw [windowRows_at_anchor st a eyeRow hk, windowRow_of_neg st hneg]
  case past => rw [windowRows_from_first st hk he, windowRow_of_length_le hend]
  case line =>
    intro lid l story c he hn hl hs hc
    rw [windowRows_from_first st hk he, windowRow_of_line hn hl hs hc]

end Sys2Proof.Machine

/-! PROOFS. The machine as a whole: which blocks a command may change, that every command ends in the sends it gives cause
for, and the one induction behind the conditions that every step keeps. -/

namespace Sys2Proof.Machine

/-! ### The blocks a command may change -/

/-- The blocks a request's owner may change, its refusal record and notices among them. -/
def ownerBlocks : Request → List Block
  | .rdln .. => [.ede, .cli, .rli]
  | .rdrn .. | .nten .. => [.cli, .rli]
  | .clrs => [.scs, .ede, .sce, .aua, .wst, .cli]
  | .mspd .. => [.sce, .aua, .wst, .cli]
  | .frze | .thaw | .rels => [.sce, .wst]
  | .jump .. => [.sce, .ede]
  | .lock .. | .free | .srcs .. | .thrs .. => [.aua, .wst, .cli]
  | .parm .. => [.ede, .ports, .dsh, .aua, .sce, .tbp, .wst, .loa, .lob, .cli, .due]
  | .pget .. | .crvr .. | .stat .. | .rfsl => []
  | .crvw .. => [.dsh]
  | .cntr .. => [.dsh, .ede]
  | .clkc .. | .cuea .. | .cued .. => [.tbp]
  | .amod .. => [.tbp, .aua, .wst, .cli]
  | .eopn .. | .elin .. | .eabn | .slck .. => [.ede]
  | .ecmt | .qfrc .. => [.scs, .ede, .sce, .wst, .cli, .rli]
  | .qcan .. => [.scs, .ede, .cli, .rli]
  | .tgts .. => [.scs, .ede]
  | .mode .. => [.msc, .ede, .ports, .aua, .sce, .tbp, .wst, .cli]
  | .save | .load | .dgld .. => [.msc]
  | .dgrn .. => [.msc, .ede, .ports, .aua, .wst, .cli]

/-- The blocks an event that is no request may change: those of its meaning, and the links on which sends start. -/
def eventBlocks : Instr → List Block
  | .resetLine _ => [.msc, .scs, .ede, .ports, .dsh, .aua, .sce, .tbp, .wst, .loa, .lob, .cli, .rli, .due, .mem]
  | .resetRelease _ => [.msc, .tbp, .cli, .rli]
  | .loadCompletion .. => [.msc, .ede, .ports, .dsh, .aua, .sce, .tbp, .wst, .loa, .lob, .cli, .rli, .due, .mem]
  | .settingsLoadTimeout _ => [.msc, .ede, .ports, .dsh, .aua, .sce, .tbp, .wst, .loa, .lob, .cli, .rli, .due]
  | .saveCompletion _ | .saveTimeout _ => [.msc, .mem, .cli, .rli]
  | .referenceEdge _ | .internalTick | .referenceLoss => [.tbp, .due, .cli, .rli]
  | .scrollStep => [.ede, .ports, .sce, .wst, .cli, .rli, .due]
  | .arbiterTick | .holdOverExpiry => [.aua, .wst, .cli, .rli, .due]
  | .portTick _ | .portSilenceExpiry _ | .handWord .. => [.ports, .aua, .wst, .cli, .rli, .due]
  | .showTimeTick => [.scs, .tbp, .cli, .rli, .due]
  | .cueTimer _ => [.tbp, .cli, .rli]
  | .playerTick => [.msc, .ports, .aua, .wst, .cli, .rli, .due]
  | .copyCompletion _ | .queuePass => [.scs, .ede, .sce, .wst, .cli, .rli]
  | .stagingCompletion => [.wst, .cli, .rli]
  | .outputTick _ | .frameSyncRequest _ | .packetSendCompletion _ => [.loa, .lob, .cli, .rli, .due]
  | _ => [.cli, .rli]

/-! #### Owners, in the order of the requests -/

/-- A refusal changes the refusal record and nothing else. -/
theorem refuse_sameBut (s : State) (l : Link) (m : Mnem) (c : Cause) (d : Nat) : SameBut [.ede] s (refuse s l m c d).1 := by
  simp [sameBut_iff, refuse]

theorem doRdln_sameBut (l : Link) (tag : Byte) (lid count : Nat) (s : State) :
    SameBut [.ede, .cli, .rli] s (doRdln l tag lid count s).1 := by
  unfold doRdln
  split
  · exact (refuse_sameBut _ _ _ _ _).mono (by simp)
  · simp [sameBut_iff, State.startRead]

theorem doRdrn_sameBut (l : Link) (tag : Byte) (page : Nat) (s : State) :
    SameBut [.cli, .rli] s (doRdrn l tag page s).1 := by
  simp [sameBut_iff, doRdrn, State.startRead]

theorem doClrs_sameBut (s : State) : SameBut [.scs, .ede, .sce, .aua, .wst, .cli] s (doClrs s).1 := by
  simp [sameBut_iff, doClrs]

theorem doMspd_sameBut (v : Int) (s : State) : SameBut [.sce, .aua, .wst, .cli] s (doMspd v s).1 := by
  simp [sameBut_iff, doMspd]

theorem State.changeScroll_sameBut (s : State) (e : ScrollEngine) : SameBut [.sce, .wst] s (s.changeScroll e).1 := by
  simp [sameBut_iff, State.changeScroll]

theorem doJump_sameBut (l : Link) (k p : Nat) (s : State) : SameBut [.sce, .ede] s (doJump l k p s).1 := by
  unfold doJump
  split
  · exact .refl _ _
  · split
    · simp [sameBut_iff]
    · exact (refuse_sameBut _ _ _ _ _).mono (by simp)

/-- A re-evaluation changes the grant, with its notice and its staging trigger. -/
theorem State.regrant_sameBut (s : State) : SameBut [.aua, .wst, .cli] s s.regrant := by
  simp [sameBut_iff]

/-- A re-evaluation after a write of the arbiter's own fields. -/
theorem State.arbiterWrite_sameBut (s : State) (a : Arbiter) :
    SameBut [.aua, .wst, .cli] s ({ s with aua := a } : State).regrant := by
  simp [sameBut_iff]

theorem doLock_sameBut (n : Nat) (s : State) : SameBut [.aua, .wst, .cli] s (doLock n s).1 := by
  unfold doLock
  split
  · exact .refl _ _
  · exact s.arbiterWrite_sameBut _

theorem doFree_sameBut (s : State) : SameBut [.aua, .wst, .cli] s (doFree s).1 := s.arbiterWrite_sameBut _

theorem doSrcs_sameBut (n : Nat) (on : Bool) (p : Nat) (s : State) : SameBut [.aua, .wst, .cli] s (doSrcs n on p s).1 := by
  unfold doSrcs
  split
  · exact .refl _ _
  · exact s.arbiterWrite_sameBut _

theorem doThrs_sameBut (v : Nat) (s : State) : SameBut [.aua, .wst, .cli] s (doThrs v s).1 := s.arbiterWrite_sameBut _

theorem State.writeParam_sameBut (s : State) (p : Param) (v : Nat) :
    SameBut [.ede, .ports, .dsh, .aua, .sce, .tbp, .wst, .loa, .lob, .cli, .due] s (s.writeParam p v).1 := by
  cases p with
  | centre n | deadband n | reverse n =>
    simp only [State.writeParam, State.tune]; split <;> simp [sameBut_iff]
  | frameRate | outFraming o =>
    simp only [State.writeParam, State.writeOutput]; split <;> simp [sameBut_iff]
  | paceMin => simp only [State.writeParam, State.writePaceMin]; split <;> simp [sameBut_iff]
  | _ => simp [sameBut_iff, State.writeParam, State.writePaceMax, State.writeGeometry, State.writeOutput]

theorem doParm_sameBut (n : Nat) (i : Option Nat) (v : Nat) (s : State) :
    SameBut [.ede, .ports, .dsh, .aua, .sce, .tbp, .wst, .loa, .lob, .cli, .due] s (doParm n i v s).1 := by
  unfold doParm
  split
  · exact s.writeParam_sameBut _ v
  · exact .refl _ _

theorem doPget_same (n : Nat) (i : Option Nat) (s : State) : (doPget n i s).1 = s := by
  unfold doPget; split <;> rfl

theorem doCrvw_sameBut (p f : Nat) (vs : List Nat) (s : State) : SameBut [.dsh] s (doCrvw p f vs s).1 := by
  unfold doCrvw; (repeat' split) <;> simp [sameBut_iff]

theorem doCrvr_same (p : Nat) (s : State) : (doCrvr p s).1 = s := by
  unfold doCrvr; split <;> rfl

theorem doCntr_sameBut (l : Link) (p : Nat) (s : State) : SameBut [.dsh, .ede] s (doCntr l p s).1 := by
  unfold doCntr; (repeat' split) <;> simp [sameBut_iff, refuse]

theorem doClkc_sameBut (a : Nat) (v : Option Nat) (s : State) : SameBut [.tbp] s (doClkc a v s).1 := by
  unfold doClkc; split <;> simp [sameBut_iff]

theorem doCuea_sameBut (k c : Nat) (s : State) : SameBut [.tbp] s (doCuea k c s).1 := by
  unfold doCuea; split <;> simp [sameBut_iff]

theorem doCued_sameBut (k : Nat) (s : State) : SameBut [.tbp] s (doCued k s).1 := by
  unfold doCued; split <;> simp [sameBut_iff]

theorem doAmod_sameBut (m : Nat) (c : Option Nat) (s : State) : SameBut [.tbp, .aua, .wst, .cli] s (doAmod m c s).1 := by
  unfold doAmod; split <;> simp [sameBut_iff]

theorem doEopn_sameBut (l : Link) (e : Option EditParams) (n : Nat) (s : State) :
    SameBut [.ede] s (doEopn l e n s).1 := by
  unfold doEopn; (repeat' split) <;> simp [sameBut_iff]

theorem doElin_sameBut (l : Link) (k st m : Nat) (c : Option Nat) (tx : List CharCell) (s : State) :
    SameBut [.ede] s (doElin l k st m c tx s).1 := by
  unfold doElin; (repeat' split) <;> simp [sameBut_iff, refuse]

theorem doEabn_sameBut (l : Link) (s : State) : SameBut [.ede] s (doEabn l s).1 := by
  unfold doEabn; (repeat' split) <;> simp [sameBut_iff]

/-- The blocks an apply, a removal or a pass may change. -/
theorem State.passFrom_sameBut (s : State) (earlier rest : List Entry) :
    SameBut [.scs, .ede, .sce, .wst, .cli, .rli] s (s.passFrom earlier rest) := by
  simp [sameBut_iff]

theorem State.copyDone_sameBut (s : State) (l : Link) (page : Page) (e : Entry) :
    SameBut [.scs, .ede, .sce, .wst, .cli, .rli] s (s.copyDone l page e) := by
  simp [sameBut_iff]

theorem State.acceptCommit_sameBut (s : State) (l : Link) (tag : Byte) (e : EditParams) (n : Nat) (page : Page)
    (st : Store) (lids : List Nat) : SameBut [.scs, .ede] s (s.acceptCommit l tag e n page st lids) := by
  simp [sameBut_iff, State.acceptCommit]

theorem State.startCopy_sameBut (s : State) (l : Link) (tag : Byte) (e : EditParams) (n : Nat) (page : Page)
    (st : Store) (lids : List Nat) :
    SameBut [.scs, .ede, .sce, .wst, .cli, .rli] s (s.startCopy l tag e n page st lids) := by
  have haccept := s.acceptCommit_sameBut l tag e n page st lids
  unfold State.startCopy
  dsimp only
  split
  · exact (haccept.mono (by simp)).trans (State.copyDone_sameBut _ _ _ _)
  · exact haccept.mono (by simp)

theorem doEcmt_sameBut (l : Link) (tag : Byte) (s : State) :
    SameBut [.scs, .ede, .sce, .wst, .cli, .rli] s (doEcmt l tag s).1 := by
  unfold doEcmt
  (repeat' split)
  · exact (refuse_sameBut _ _ _ _ _).mono (by simp)
  · exact (refuse_sameBut _ _ _ _ _).mono (by simp)
  · exact s.startCopy_sameBut _ _ _ _ _ _ _
  · exact (refuse_sameBut _ _ _ _ _).mono (by simp)

theorem State.cancelEntry_sameBut (s : State) (e : Entry) : SameBut [.scs, .ede, .cli, .rli] s (s.cancelEntry e).1 := by
  unfold State.cancelEntry; split <;> simp [sameBut_iff]

theorem doQcan_sameBut (l : Link) (el et : Nat) (s : State) : SameBut [.scs, .ede, .cli, .rli] s (doQcan l el et s).1 := by
  unfold doQcan
  (repeat' split)
  · exact .refl _ _
  · exact .refl _ _
  · exact (refuse_sameBut _ _ _ _ _).mono (by simp)
  · exact s.cancelEntry_sameBut _

theorem State.forceEntry_sameBut (s : State) (l : Link) (e : Entry) :
    SameBut [.scs, .ede, .sce, .wst, .cli, .rli] s (s.forceEntry l e).1 := by
  unfold State.forceEntry; (repeat' split) <;> simp [sameBut_iff, refuse]

theorem doQfrc_sameBut (l : Link) (el et : Nat) (s : State) :
    SameBut [.scs, .ede, .sce, .wst, .cli, .rli] s (doQfrc l el et s).1 := by
  unfold doQfrc
  (repeat' split)
  · exact .refl _ _
  · exact (refuse_sameBut _ _ _ _ _).mono (by simp)
  · exact s.forceEntry_sameBut _ _
  · exact (refuse_sameBut _ _ _ _ _).mono (by simp)

theorem doSlck_sameBut (l : Link) (k : Nat) (e : LockEntry) (s : State) : SameBut [.ede] s (doSlck l k e s).1 := by
  unfold doSlck; (repeat' split) <;> simp [sameBut_iff, refuse]

theorem doTgts_sameBut (l : Link) (n : Nat) (t : Option Nat) (s : State) : SameBut [.scs, .ede] s (doTgts l n t s).1 := by
  unfold doTgts; (repeat' split) <;> simp [sameBut_iff, refuse]

theorem doStat_same (l : Link) (k : Nat) (i : Option Nat) (s : State) : (doStat l k i s).1 = s := by
  unfold doStat; split <;> rfl

theorem State.changeMode_sameBut (s : State) (m : Mode) :
    SameBut [.msc, .ede, .ports, .aua, .sce, .tbp, .wst, .cli] s (s.changeMode m) := by
  simp [sameBut_iff]

theorem doMode_sameBut (l : Link) (m : Nat) (s : State) :
    SameBut [.msc, .ede, .ports, .aua, .sce, .tbp, .wst, .cli] s (doMode l m s).1 := by
  unfold doMode
  (repeat' split)
  · exact .refl _ _
  · exact .refl _ _
  · exact .refl _ _
  · exact s.changeMode_sameBut _
  · exact (refuse_sameBut _ _ _ _ _).mono (by simp)

theorem doSave_sameBut (s : State) : SameBut [.msc] s (doSave s).1 := by
  unfold doSave; (repeat' split) <;> simp [sameBut_iff]

theorem doLoad_sameBut (s : State) : SameBut [.msc] s (doLoad s).1 := by
  unfold doLoad; (repeat' split) <;> simp [sameBut_iff]

theorem doDgld_sameBut (f : Nat) (es : List PlayerArg) (n : Nat) (s : State) : SameBut [.msc] s (doDgld f es n s).1 := by
  unfold doDgld; (repeat' split) <;> simp [sameBut_iff]

theorem State.runPlayer_sameBut (s : State) (l : Link) (loop : Option Bool) :
    SameBut [.msc, .ede, .ports, .aua, .wst, .cli] s (s.runPlayer l loop).1 := by
  unfold State.runPlayer; (repeat' split) <;> simp [sameBut_iff, refuse]

theorem doDgrn_sameBut (l : Link) (a : Nat) (loop : Option Bool) (s : State) :
    SameBut [.msc, .ede, .ports, .aua, .wst, .cli] s (doDgrn l a loop s).1 := by
  unfold doDgrn
  (repeat' split)
  · exact .refl _ _
  · exact s.runPlayer_sameBut _ _
  · exact .refl _ _
  · exact s.runPlayer_sameBut _ _
  · exact .refl _ _

theorem doNten_sameBut (l : Link) (ps : List (Nat × Bool)) (s : State) : SameBut [.cli, .rli] s (doNten l ps s).1 := by
  unfold doNten; dsimp only; split <;> simp [sameBut_iff]

/-- Every owner leaves the blocks that are not its own as they were. -/
theorem serve_sameBut (l : Link) (tag : Byte) (r : Request) (s : State) :
    SameBut (ownerBlocks r) s (serve l tag r s).1 := by
  cases r with
  | rdln => apply doRdln_sameBut
  | rdrn => apply doRdrn_sameBut
  | clrs => apply doClrs_sameBut
  | mspd => apply doMspd_sameBut
  | frze | thaw | rels => exact s.changeScroll_sameBut _
  | jump => apply doJump_sameBut
  | lock => apply doLock_sameBut
  | free => apply doFree_sameBut
  | srcs => apply doSrcs_sameBut
  | thrs => apply doThrs_sameBut
  | parm => apply doParm_sameBut
  | pget n i => exact (doPget_same n i s).symm ▸ .refl _ _
  | crvw => apply doCrvw_sameBut
  | crvr p => exact (doCrvr_same p s).symm ▸ .refl _ _
  | cntr => apply doCntr_sameBut
  | clkc => apply doClkc_sameBut
  | cuea => apply doCuea_sameBut
  | cued => apply doCued_sameBut
  | amod => apply doAmod_sameBut
  | eopn => apply doEopn_sameBut
  | elin => apply doElin_sameBut
  | eabn => apply doEabn_sameBut
  | ecmt => apply doEcmt_sameBut
  | qcan => apply doQcan_sameBut
  | qfrc => apply doQfrc_sameBut
  | slck => apply doSlck_sameBut
  | tgts => apply doTgts_sameBut
  | rfsl => exact .refl _ _
  | stat k i => exact (doStat_same l k i s).symm ▸ .refl _ _
  | mode => apply doMode_sameBut
  | save => apply doSave_sameBut
  | load => apply doLoad_sameBut
  | dgld => apply doDgld_sameBut
  | dgrn => apply doDgrn_sameBut
  | nten => apply doNten_sameBut

/-! ### The outcome of a command -/

/-- An outcome is a state with the sends it gives cause for, the state before them meeting a condition. -/
def Ends (Q : State → Prop) (o : Host.Outcome State Fault Refusal) : Prop := ∃ u, o = finish u ∧ Q u

theorem ends_finish {Q : State → Prop} {u : State} (h : Q u) : Ends Q (finish u) := ⟨u, rfl, h⟩

theorem Ends.mono {Q R : State → Prop} {o : Host.Outcome State Fault Refusal} (h : Ends Q o) (hQR : ∀ u, Q u → R u) :
    Ends R o := by
  obtain ⟨u, rfl, hu⟩ := h
  exact ends_finish (hQR u hu)

/-- The command brings a request to an owner: it is a request, or takes one from a receive queue. -/
def carriesRequest : Instr → Bool
  | .requestExecution .. => true
  | c => c.request?.isSome

theorem State.setLink_linksOnly (s : State) (l : Link) (i : LinkIface) : SameBut [.cli, .rli] s (s.setLink l i) := by
  simp [sameBut_iff]

theorem State.completeRead_linksOnly (s : State) (l : Link) (k : ReadKind) :
    SameBut [.cli, .rli] s (s.completeRead l k) := by
  unfold State.completeRead State.endRead State.respond
  (repeat' split) <;> simp [sameBut_iff]

theorem State.openSlot_sameBut (s : State) (o : OutputId) : SameBut [.loa, .lob, .cli] s (s.openSlot o) := by
  unfold State.openSlot
  dsimp only
  split
  · simp [sameBut_iff]
  · split
    · simp [sameBut_iff]
    · split <;> simp [sameBut_iff]

theorem execResetLine_sameBut (n : Nat) (s : State) :
    Ends (SameBut [.msc, .scs, .ede, .ports, .dsh, .aua, .sce, .tbp, .wst, .loa, .lob, .cli, .rli, .due, .mem] s)
      (execResetLine n s) :=
  ends_finish (by simp [sameBut_iff, State.resetAt])

theorem execResetRelease_sameBut (w : Nat) (s : State) :
    Ends (SameBut [.msc, .tbp, .cli, .rli] s) (execResetRelease w s) := by
  dsimp only [execResetRelease]
  split <;> exact ends_finish (by simp [sameBut_iff])

theorem execLoadCompletion_sameBut (w : Nat) (image : Option (List Word16)) (s : State) :
    Ends (SameBut [.msc, .ede, .ports, .dsh, .aua, .sce, .tbp, .wst, .loa, .lob, .cli, .rli, .due, .mem] s)
      (execLoadCompletion w image s) := by
  dsimp only [execLoadCompletion]
  split <;> exact ends_finish (by simp [sameBut_iff])

theorem execSettingsLoadTimeout_sameBut (w : Nat) (s : State) :
    Ends (SameBut [.msc, .ede, .ports, .dsh, .aua, .sce, .tbp, .wst, .loa, .lob, .cli, .rli, .due] s)
      (execSettingsLoadTimeout w s) := by
  dsimp only [execSettingsLoadTimeout]
  split <;> exact ends_finish (by simp [sameBut_iff])

theorem execSaveCompletion_sameBut (back : Option (List Word16)) (s : State) :
    Ends (SameBut [.msc, .mem, .cli, .rli] s) (execSaveCompletion back s) := by
  dsimp only [execSaveCompletion]
  (repeat' split) <;> exact ends_finish (by simp [sameBut_iff])

theorem execSaveTimeout_sameBut (n : Nat) (s : State) :
    Ends (SameBut [.msc, .mem, .cli, .rli] s) (execSaveTimeout n s) := by
  dsimp only [execSaveTimeout]
  split <;> exact ends_finish (by simp [sameBut_iff])

theorem execReferenceEdge_sameBut (w : Nat) (s : State) :
    Ends (SameBut [.tbp, .due, .cli, .rli] s) (execReferenceEdge w s) := by
  dsimp only [execReferenceEdge]
  (repeat' split) <;> exact ends_finish (by simp [sameBut_iff])

theorem execInternalTick_sameBut (s : State) :
    Ends (SameBut [.tbp, .due, .cli, .rli] s) (execInternalTick s) := by
  dsimp only [execInternalTick]
  split <;> exact ends_finish (by simp [sameBut_iff])

theorem execReferenceLoss_sameBut (s : State) :
    Ends (SameBut [.tbp, .due, .cli, .rli] s) (execReferenceLoss s) := by
  dsimp only [execReferenceLoss]
  split <;> exact ends_finish (by simp [sameBut_iff])

theorem execScrollStep_sameBut (s : State) :
    Ends (SameBut [.ede, .ports, .sce, .wst, .cli, .rli, .due] s) (execScrollStep s) :=
  ends_finish (by simp [sameBut_iff])

theorem execArbiterTick_sameBut (s : State) :
    Ends (SameBut [.aua, .wst, .cli, .rli, .due] s) (execArbiterTick s) := by
  dsimp only [execArbiterTick]
  split <;> exact ends_finish (by simp [sameBut_iff])

theorem execHoldOverExpiry_sameBut (s : State) :
    Ends (SameBut [.aua, .wst, .cli, .rli, .due] s) (execHoldOverExpiry s) := by
  dsimp only [execHoldOverExpiry]
  split <;> exact ends_finish (by simp [sameBut_iff])

theorem execPortTick_sameBut (n : Fin 4) (s : State) :
    Ends (SameBut [.ports, .aua, .wst, .cli, .rli, .due] s) (execPortTick n s) :=
  ends_finish (by simp [sameBut_iff])

theorem execPortSilenceExpiry_sameBut (n : Fin 4) (s : State) :
    Ends (SameBut [.ports, .aua, .wst, .cli, .rli, .due] s) (execPortSilenceExpiry n s) := by
  dsimp only [execPortSilenceExpiry]
  split <;> exact ends_finish (by simp [sameBut_iff])

theorem execHandWord_sameBut (n : Fin 4) (w : HandBits) (s : State) :
    Ends (SameBut [.ports, .aua, .wst, .cli, .rli, .due] s) (execHandWord n w s) := by
  dsimp only [execHandWord]
  (repeat' split) <;> exact ends_finish (by simp [sameBut_iff])

theorem execShowTimeTick_sameBut (s : State) :
    Ends (SameBut [.scs, .tbp, .cli, .rli, .due] s) (execShowTimeTick s) :=
  ends_finish (by simp [sameBut_iff])

theorem execCueTimer_sameBut (k : Fin 4) (s : State) :
    Ends (SameBut [.tbp, .cli, .rli] s) (execCueTimer k s) :=
  ends_finish (by simp [sameBut_iff])

theorem execPlayerTick_sameBut (s : State) :
    Ends (SameBut [.msc, .ports, .aua, .wst, .cli, .rli, .due] s) (execPlayerTick s) := by
  dsimp only [execPlayerTick]
  split <;> exact ends_finish (by simp [sameBut_iff])

theorem execCopyCompletion_sameBut (l : Link) (s : State) :
    Ends (SameBut [.scs, .ede, .sce, .wst, .cli, .rli] s) (execCopyCompletion l s) := by
  dsimp only [execCopyCompletion]
  (repeat' split) <;> exact ends_finish (by simp [sameBut_iff])

theorem execQueuePass_sameBut (s : State) :
    Ends (SameBut [.scs, .ede, .sce, .wst, .cli, .rli] s) (execQueuePass s) :=
  ends_finish (by simp [sameBut_iff])

theorem execStagingCompletion_sameBut (s : State) :
    Ends (SameBut [.wst, .cli, .rli] s) (execStagingCompletion s) := by
  dsimp only [execStagingCompletion]
  split <;> exact ends_finish (by simp [sameBut_iff])

theorem execOutputTick_sameBut (o : OutputId) (s : State) :
    Ends (SameBut [.loa, .lob, .cli, .rli, .due] s) (execOutputTick o s) := by
  dsimp only [execOutputTick]
  have htaken : SameBut [.due] s (s.outTickTaken o) := by simp [sameBut_iff]
  (repeat' split)
  · exact ends_finish (by simp [sameBut_iff])
  · exact ends_finish ((htaken.mono (by simp)).trans
      ((State.openSlot_sameBut _ _).mono (by simp)))
  · exact ends_finish (htaken.mono (by simp))

theorem execFrameSyncRequest_sameBut (o : OutputId) (s : State) :
    Ends (SameBut [.loa, .lob, .cli, .rli, .due] s) (execFrameSyncRequest o s) := by
  dsimp only [execFrameSyncRequest]
  (repeat' split)
  · exact ends_finish (by simp [sameBut_iff])
  · exact ends_finish ((State.openSlot_sameBut _ _).mono (by simp))
  · exact ends_finish (.refl _ _)

theorem execPacketSendCompletion_sameBut (o : OutputId) (s : State) :
    Ends (SameBut [.loa, .lob, .cli, .rli, .due] s) (execPacketSendCompletion o s) :=
  ends_finish (by simp [sameBut_iff])

/-- Every event that brings no request leaves the blocks that are not its own as they were. -/
theorem exec_event_sameBut {c : Instr} (hc : carriesRequest c = false) (s : State) :
    Ends (SameBut (eventBlocks c) s) (exec c s) := by
  cases c with
  | resetLine => apply execResetLine_sameBut
  | resetRelease => apply execResetRelease_sameBut
  | loadCompletion => apply execLoadCompletion_sameBut
  | settingsLoadTimeout => apply execSettingsLoadTimeout_sameBut
  | saveCompletion => apply execSaveCompletion_sameBut
  | saveTimeout => apply execSaveTimeout_sameBut
  | referenceEdge => apply execReferenceEdge_sameBut
  | internalTick => apply execInternalTick_sameBut
  | referenceLoss => apply execReferenceLoss_sameBut
  | scrollStep => apply execScrollStep_sameBut
  | arbiterTick => apply execArbiterTick_sameBut
  | holdOverExpiry => apply execHoldOverExpiry_sameBut
  | portTick => apply execPortTick_sameBut
  | portSilenceExpiry => apply execPortSilenceExpiry_sameBut
  | handWord => apply execHandWord_sameBut
  | showTimeTick => apply execShowTimeTick_sameBut
  | cueTimer => apply execCueTimer_sameBut
  | playerTick => apply execPlayerTick_sameBut
  | copyCompletion => apply execCopyCompletion_sameBut
  | queuePass => apply execQueuePass_sameBut
  | stagingCompletion => apply execStagingCompletion_sameBut
  | outputTick => apply execOutputTick_sameBut
  | frameSyncRequest => apply execFrameSyncRequest_sameBut
  | packetSendCompletion => apply execPacketSendCompletion_sameBut
  | linkFrameReceived l _ | interByteTimeout l | linkSendStart l | linkSendCompletion l =>
    exact ends_finish (s.setLink_linksOnly l _)
  | rdlnCompletion l | rdrnCompletion l => exact ends_finish (s.completeRead_linksOnly l _)
  | _ => cases hc

/-- A request command takes its request on its link, at an instant that may lie past the time reached. -/
theorem exec_takeRequest {c : Instr} {l : Link} {tag : Byte} {r : Request} (h : c.request? = some (l, tag, r))
    (s : State) : ∃ w, exec c s = finish ((s.reach w).takeRequest l tag r) := by
  cases c with
  | parm l' t n i v w =>
    simp only [Instr.request?, Option.some.injEq, Prod.mk.injEq] at h
    obtain ⟨rfl, rfl, rfl⟩ := h
    exact ⟨w, rfl⟩
  | _ =>
    refine ⟨0, ?_⟩
    rw [State.reach_past (Nat.zero_le _)]
    exact exec_request h (instantsPast_of_ne (by simp))

/-- Every command ends in a state with its sends started. -/
theorem exec_finishes (c : Instr) (s : State) : ∃ u, exec c s = finish u := by
  cases hr : c.request? with
  | some x =>
    obtain ⟨w, hw⟩ := exec_takeRequest (l := x.1) (tag := x.2.1) (r := x.2.2) hr s
    exact ⟨_, hw⟩
  | none =>
    by_cases hc : carriesRequest c = true
    · cases c with
      | requestExecution l w => exact ⟨_, rfl⟩
      | _ => simp [carriesRequest, hr] at hc
    · obtain ⟨u, hu, -⟩ := exec_event_sameBut (by simpa using hc) s
      exact ⟨u, hu⟩

/-- Settles O1. -/
theorem stepTakesFrontCommand : Obligations.StepTakesFrontCommand := by
  refine ⟨fun c rest s h => ?_, fun s h => ?_, fun c s => ?_⟩
  · simp [step, h]
  · simp [step, h]
  · obtain ⟨u, hu⟩ := exec_finishes c s
    exact ⟨u.settle, hu⟩

/-- Settles O3: an idle step keeps the state, and every command ends by starting the sends it gives cause for. -/
theorem stepKeepsSettled : Obligations.StepKeepsSettled := by
  intro s t hs h
  unfold step at h
  split at h
  · cases h; exact hs
  · next c rest _ =>
    obtain ⟨u, hu⟩ := exec_finishes c { s with pending := rest }
    rw [hu] at h
    cases h
    exact u.settle_settled

end Sys2Proof.Machine

/-! PROOFS. The one induction behind the conditions that every step keeps: a condition on blocks other than the links is
kept by a step where the owners and the events that may change those blocks keep it. -/

namespace Sys2Proof.Machine

/-- A condition is about a list of blocks alone. -/
def DependsOn (bs : List Block) (P : State → Prop) : Prop := ∀ s t, (∀ b ∈ bs, b.same s t) → P s → P t

/-- The blocks that every link event and every request may change. -/
def linkBlocks : List Block := [.cli, .rli, .pending]

/-- Two lists of blocks have none in common. -/
def apart (bs cs : List Block) : Bool := bs.all fun b => !cs.contains b

theorem DependsOn.keep {bs cs : List Block} {P : State → Prop} (h : DependsOn bs P) (hb : apart bs cs = true)
    {s t : State} (hst : SameBut cs s t) (hs : P s) : P t := by
  refine h s t (fun b hbs => hst b ?_) hs
  simp only [apart, List.all_eq_true] at hb
  simpa using hb b hbs

theorem DependsOn.setLink {bs : List Block} {P : State → Prop} (h : DependsOn bs P) (hb : apart bs linkBlocks = true)
    {s : State} (hs : P s) (l : Link) (i : LinkIface) : P (s.setLink l i) :=
  h.keep hb ((s.setLink_linksOnly l i).mono (by simp [linkBlocks])) hs

theorem Ends.next {Q : State → Prop} {o : Host.Outcome State Fault Refusal} {t : State} (h : Ends Q o)
    (ho : o = .next t) : ∃ u, t = u.settle ∧ Q u := by
  obtain ⟨u, rfl, hu⟩ := h
  cases ho
  exact ⟨u, rfl, hu⟩

section
variable {P Q : State → Prop} {ps bs : List Block}

/-- A request executed on a link: its owner decides, and the response changes its link only. -/
theorem State.deliver_leads (hQ : DependsOn bs Q) (hl : apart bs linkBlocks = true) (hPQ : ∀ s, P s → Q s)
    (hserve : ∀ l tag r s, r.wellFormed = true → P s → Q (serve l tag r s).1) {s : State} (h : P s) (l : Link) (tag : Byte) (m : Mnem)
    (r : Option Request) : Q (s.deliver l tag m r) := by
  have hjudge : Q (judge l tag m r s).1 := by
    unfold judge
    split
    · exact hPQ s h
    · split
      · exact hPQ s h
      · split
        · split
          · next hw => exact hserve _ _ _ s hw h
          · exact hPQ s h
        · exact hPQ s h
  unfold State.deliver State.answer State.respond
  split
  · exact hQ.setLink hl hjudge ..
  · exact hjudge

theorem State.takeRequest_leads (hQ : DependsOn bs Q) (hl : apart bs linkBlocks = true) (hPQ : ∀ s, P s → Q s)
    (hserve : ∀ l tag r s, r.wellFormed = true → P s → Q (serve l tag r s).1) {s : State} (h : P s) (l : Link)
    (tag : Byte) (r : Request) :
    Q (s.takeRequest l tag r) := by
  unfold State.takeRequest
  split
  · exact State.deliver_leads hQ hl hPQ hserve h ..
  · exact hQ.setLink hl (hPQ s h) ..

theorem State.executeNext_leads (hP : DependsOn ps P) (hp : apart ps linkBlocks = true) (hQ : DependsOn bs Q)
    (hl : apart bs linkBlocks = true) (hPQ : ∀ s, P s → Q s)
    (hserve : ∀ l tag r s, r.wellFormed = true → P s → Q (serve l tag r s).1) {s : State} (h : P s) (l : Link) :
    Q (s.executeNext l) := by
  unfold State.executeNext
  split
  · exact hPQ s h
  · split
    · next f rest _ _ =>
      have htaken := hP.setLink hp h l { s.link l with receiveQueue := rest }
      unfold State.executeFrame
      split
      · exact hQ.setLink hl (hPQ _ htaken) ..
      · exact State.deliver_leads hQ hl hPQ hserve htaken ..
    · exact hPQ s h

/-- A step leads from one condition to another where every owner and every event that may change their blocks does. -/
theorem step_leads (hP : DependsOn ps P) (hp : apart ps linkBlocks = true) (hQ : DependsOn bs Q)
    (hl : apart bs linkBlocks = true) (hPQ : ∀ s, P s → Q s)
    (hreach : ∀ s w, P s → P (s.reach w))
    (hserve : ∀ l tag r s, r.wellFormed = true → apart bs (ownerBlocks r) = false → P s → Q (serve l tag r s).1)
    (hevent : ∀ c s, carriesRequest c = false → apart bs (eventBlocks c) = false → P s → Ends Q (exec c s)) :
    ∀ s t, P s → step s = .next t → Q t := by
  have hserves (l tag r s) (hw : r.wellFormed = true) (h : P s) : Q (serve l tag r s).1 := by
    by_cases hb : apart bs (ownerBlocks r) = true
    · exact hQ.keep hb (serve_sameBut l tag r s) (hPQ s h)
    · exact hserve l tag r s hw (by simpa using hb) h
  have hexec (c s) (h : P s) : Ends Q (exec c s) := by
    cases hr : c.request? with
    | some x =>
      obtain ⟨w, hw⟩ := exec_takeRequest (l := x.1) (tag := x.2.1) (r := x.2.2) hr s
      rw [hw]
      exact ends_finish (State.takeRequest_leads hQ hl hPQ hserves (hreach s w h) ..)
    | none =>
      by_cases hc : carriesRequest c = true
      · cases c with
        | requestExecution l w => exact ends_finish (State.executeNext_leads hP hp hQ hl hPQ hserves (hreach s w h) l)
        | _ => simp [carriesRequest, hr] at hc
      · have hc : carriesRequest c = false := by simpa using hc
        by_cases hb : apart bs (eventBlocks c) = true
        · exact (exec_event_sameBut hc s).mono fun u hu => hQ.keep hb hu (hPQ s h)
        · exact hevent c s hc (by simpa using hb) h
  intro s t h ht
  unfold step at ht
  split at ht
  · cases ht; exact hPQ s h
  · next c rest _ =>
    have hrest : P { s with pending := rest } := hP.keep (cs := linkBlocks) hp (by simp [sameBut_iff, linkBlocks]) h
    obtain ⟨u, rfl, hu⟩ := (hexec c _ hrest).next ht
    exact hQ.keep hl (u.settle_sameBut.mono (by simp [linkBlocks])) hu

end

/-- A condition that every owner and every event keeps, of those that may change its blocks, is kept by every step. -/
theorem step_keeps {P : State → Prop} {bs : List Block} (hP : DependsOn bs P) (hl : apart bs linkBlocks = true)
    (hreach : ∀ s w, P s → P (s.reach w))
    (hserve : ∀ l tag r s, r.wellFormed = true → apart bs (ownerBlocks r) = false → P s → P (serve l tag r s).1)
    (hevent : ∀ c s, carriesRequest c = false → apart bs (eventBlocks c) = false → P s → Ends P (exec c s)) :
    ∀ s t, P s → step s = .next t → P t :=
  step_leads hP hl hP hl (fun _ h => h) hreach hserve hevent

/-! ### The settings memory (R186, log entry 2) -/

theorem dependsOn_memoryOk : DependsOn [.mem] (fun s => s.memoryOk = true) := by
  intro s t h hs
  have hmem : t.mem = s.mem := h .mem (by simp)
  simpa [State.memoryOk, hmem] using hs

/-- Settles O4: the memory is written by a save, its failures, the reset line during one, and an image given with a load;
each writes in canonical form. -/
theorem stepKeepsMemoryCanonical : Obligations.StepKeepsMemoryCanonical := by
  refine step_keeps dependsOn_memoryOk (by decide) (fun _ _ h => h) (fun l tag r s _ hb => ?_) (fun c s hc hb h => ?_)
  · cases r <;> cases hb
  · cases c with
    | resetLine n => exact ends_finish (s.memAtReset_wf n h)
    | loadCompletion w image =>
      dsimp only [exec, execLoadCompletion]
      split
      · exact ends_finish (by simpa [State.memoryOk] using memoryAtLoad_wf s.mem image h)
      · exact ends_finish h
    | saveCompletion back =>
      dsimp only [exec, execSaveCompletion]
      (repeat' split)
      · exact ends_finish (memAfterWrites_wf _ _ _ h)
      · exact ends_finish (memAfterBadReadBack_wf _ _ _ h)
      · exact ends_finish h
    | saveTimeout n =>
      dsimp only [exec, execSaveTimeout]
      split
      · exact ends_finish (memAfterWrites_wf _ _ _ h)
      · exact ends_finish h
    | _ => cases hb

end Sys2Proof.Machine

/-! PROOFS. The scroll engine (chapter 2): what each of its operations makes of its position, state and velocity, and v at
rest (R24). -/

namespace Sys2Proof.Machine

/-! ### The engine's operations -/

/-- Following the current story makes it the anchor's (R22). -/
theorem State.followStory_sce_eq (s : State) :
    s.followStory.sce = { s.sce with currentStory := s.sce.anchor.bind s.scs.storyOfLine? } := by
  unfold State.followStory
  split
  · next h => simp [h]
  · next story h =>
    split
    · next hc => rw [h, ← hc]
    · simp [h]

/-- Following the current story raises STORY_AT_EYE where it differs (R22). -/
theorem State.followStory_cli_eq (s : State) :
    s.followStory.cli = { s.cli with
      notices := storyTold s.cli.notices s.sce.currentStory (s.sce.anchor.bind s.scs.storyOfLine?) } := by
  unfold State.followStory
  split
  · next h => simp [h, storyTold]
  · next story h => split <;> simp_all [storyTold]

/-- The current story once the anchor has been set: as it stood where the anchor is kept, else the anchor's (R22). -/
def State.storyAt (s : State) (a : Option Nat) : Option Nat :=
  if a = s.sce.anchor then s.sce.currentStory else a.bind s.scs.storyOfLine?

/-- A move sets anchor and fraction, with the current story of an anchor that changes line (R22). -/
theorem State.moveAnchor_sce_eq (s : State) (a : Option Nat) (f : Nat) :
    (s.moveAnchor a f).sce = { s.sce with anchor := a, fraction := f, currentStory := s.storyAt a } := by
  unfold State.moveAnchor State.storyAt
  dsimp only
  split
  · rfl
  · simp [State.followStory_sce_eq]

/-- A landing taken: the line, fraction and velocity it gives, and HELD where it is a hold catch (R30, R31). -/
theorem State.takeLanding_sce (s : State) (l : Landing) :
    (s.takeLanding l).sce = { s.sce with
      anchor := some l.lid, fraction := l.fraction, velocity := l.velocity,
      state := if l.held then .held else s.sce.state, currentStory := s.storyAt (some l.lid) } := by
  unfold State.takeLanding
  dsimp only
  split <;> simp [State.moveAnchor_sce_eq]

theorem State.reportCues_sce (s : State) (p q : Nat) : (s.reportCues p q).sce = s.sce := by simp

/-- A jump applied: to the line its target resolves to at fraction 0 with v 0, or discarded with the position left as it was
(R42). -/
theorem State.applyJump_sce (s : State) (t : JumpTarget) :
    (s.applyJump t).sce = match s.resolve t with
      | none => { s.sce with pendingJump := none }
      | some lid => { s.sce with
          pendingJump := none, anchor := some lid, fraction := 0, velocity := 0, state := s.sce.state.afterJump,
          currentStory := s.storyAt (some lid) } := by
  unfold State.applyJump
  dsimp only
  split
  · next h => simp [h]
  · next lid h => simp only [h, State.moveAnchor_sce_eq]; rfl

/-- The landings of an integration: forward, backward, or none at v 0 and in a script that has no line there (R30, R34). -/
def Store.landing (st : Store) (p : Nat) (v : Int) : Option Landing :=
  if 0 < v then st.landForward p v.toNat else if v < 0 then st.landBackward p v else none

/-- An integration takes its landing, or leaves the position with v 0 (R30). -/
theorem State.integrate_sce (s : State) (p : Nat) (v : Int) :
    (s.integrate p v).sce = match s.scs.landing p v with
      | some l => (s.takeLanding l).sce
      | none => { s.sce with velocity := 0 } := by
  unfold State.integrate Store.landing
  split
  · split <;> simp_all
  · split
    · split <;> simp_all
    · rfl

theorem Store.landAt_eq {st : Store} {q : Nat} {v : Int} {l : Landing} (h : st.landAt q v = some l) :
    st.lineAt? (q / 4096) = some l.lid ∧ l.fraction = q % 4096 ∧ l.velocity = v ∧ l.held = false ∧ l.stop = q := by
  unfold Store.landAt at h
  simp only [Option.map_eq_some_iff] at h
  obtain ⟨lid, hlid, rfl⟩ := h
  exact ⟨hlid, rfl, rfl, rfl, rfl⟩

/-- A hold catch comes to rest with v 0 (R31). -/
theorem Store.landing_held {st : Store} {p : Nat} {v : Int} {l : Landing} (h : st.landing p v = some l)
    (hl : l.held = true) : l.velocity = 0 := by
  unfold Store.landing at h
  split at h
  · unfold Store.landForward at h
    split at h
    · cases h; rfl
    · split at h <;> rw [Store.landAt_held h] at hl <;> cases hl
  · split at h
    · unfold Store.landBackward at h
      split at h <;> rw [Store.landAt_held h] at hl <;> cases hl
    · cases h

/-! ### The velocity at rest (R24) -/

/-- What holds v at 0: FROZEN or HELD, an empty anchor, SETUP or LOADING (R24). -/
def ScrollEngine.rests (e : ScrollEngine) (m : Mode) : Prop :=
  e.state ≠ .running ∨ e.anchor = none ∨ m.suspended = true

theorem State.stillOk_iff (s : State) : s.stillOk = true ↔ (s.sce.rests s.msc.mode → s.sce.velocity = 0) := by
  unfold State.stillOk ScrollEngine.rests
  cases s.sce.state <;> cases s.sce.anchor <;> cases s.msc.mode.suspended <;> simp

theorem State.stillOk_of_zero {s : State} (h : s.sce.velocity = 0) : s.stillOk = true :=
  (s.stillOk_iff).2 fun _ => h

/-- v is at rest still where it is kept and nothing new holds it at 0. -/
theorem State.stillOk_of_kept {s t : State} (h : s.stillOk = true) (hv : t.sce.velocity = s.sce.velocity)
    (hr : t.sce.rests t.msc.mode → s.sce.rests s.msc.mode) : t.stillOk = true :=
  (t.stillOk_iff).2 fun ht => hv.trans ((s.stillOk_iff).1 h (hr ht))

theorem State.stillOk_congr {s t : State} (h : s.stillOk = true) (hsce : t.sce = s.sce) (hm : t.msc.mode = s.msc.mode) :
    t.stillOk = true :=
  State.stillOk_of_kept h (by rw [hsce]) (by rw [hsce, hm]; exact id)

theorem dependsOn_stillOk : DependsOn [.sce, .msc] (fun s => s.stillOk = true) := by
  intro s t h hs
  have hsce : t.sce = s.sce := h .sce (by simp)
  have hmsc : t.msc = s.msc := h .msc (by simp)
  exact State.stillOk_congr hs hsce (by rw [hmsc])

theorem ScrollEngine.toggleFreeze_still {e : ScrollEngine} {m : Mode} (h : e.rests m → e.velocity = 0) :
    e.toggleFreeze.rests m → e.toggleFreeze.velocity = 0 := by
  unfold ScrollEngine.toggleFreeze
  split
  · next hf => exact fun _ => h (.inl (by simp [hf]))
  · exact fun _ => rfl

theorem ScrollEngine.release_still {e : ScrollEngine} {m : Mode} (h : e.rests m → e.velocity = 0) :
    e.release.rests m → e.release.velocity = 0 := by
  unfold ScrollEngine.release
  split
  · next hf => exact fun _ => h (.inl (by simp [hf]))
  · exact h

theorem ScrollEngine.thaw_still {e : ScrollEngine} {m : Mode} (h : e.rests m → e.velocity = 0) :
    e.thaw.rests m → e.thaw.velocity = 0 := by
  unfold ScrollEngine.thaw
  split
  · next hf => exact fun _ => h (.inl (by simp [hf]))
  · exact h

/-- The buttons leave v at rest where it is held at 0 (R27). -/
theorem ScrollEngine.press_still {e : ScrollEngine} {m : Mode} (b : Edges) (h : e.rests m → e.velocity = 0) :
    (e.press b).rests m → (e.press b).velocity = 0 := by
  have h1 : (if b.holdToggle then e.toggleFreeze else e).rests m →
      (if b.holdToggle then e.toggleFreeze else e).velocity = 0 := by
    split
    · exact ScrollEngine.toggleFreeze_still h
    · exact h
  unfold ScrollEngine.press
  dsimp only
  split
  · exact ScrollEngine.release_still h1
  · exact h1

/-- A change of the engine's state keeps v at rest where the engine's own change does. -/
theorem State.changeScroll_still {s : State} {e : ScrollEngine}
    (h : e.rests s.msc.mode → e.velocity = 0) : (s.changeScroll e).1.stillOk = true := by
  rw [State.stillOk_iff]
  simpa [State.changeScroll] using h

/-- A landing leaves v at rest: it is on a line, and HELD only with v 0 (R31). -/
theorem State.drive_still {s : State} {p : Nat} (hs : s.heldStill = false) : (s.drive p).stillOk = true := by
  simp only [State.heldStill, Bool.or_eq_false_iff, decide_eq_false_iff_not, ne_eq, Decidable.not_not] at hs
  obtain ⟨hrun, hmode⟩ := hs
  unfold State.drive
  cases hl : s.scs.landing p (slew s.sce.velocity (s.target p) s.sce.accel s.sce.decel) with
  | none => exact State.stillOk_of_zero (by simp [State.integrate_sce, hl])
  | some l =>
    rw [State.stillOk_iff]
    simp only [State.integrate_sce, hl, State.takeLanding_sce]
    rintro (hst | han | hsus)
    · refine Store.landing_held hl ?_
      by_contra hh
      simp [hh, hrun] at hst
    · cases han
    · simp [hmode] at hsus

theorem ScrollState.afterJump_running {st : ScrollState} (h : st.afterJump ≠ .running) : st ≠ .running := by
  rintro rfl; exact h rfl

/-- A jump leaves v at rest: it gives v 0, or is discarded (R42). -/
theorem State.applyJump_still {s : State} (h : s.stillOk = true) (t : JumpTarget) : (s.applyJump t).stillOk = true := by
  cases hr : s.resolve t with
  | none => exact State.stillOk_of_kept h (by simp [State.applyJump_sce, hr]) (by simp [State.applyJump_sce, hr, ScrollEngine.rests])
  | some lid => exact State.stillOk_of_zero (by simp [State.applyJump_sce, hr])

theorem State.scrollStep_still {s : State} (h : s.stillOk = true) : s.scrollStep.stillOk = true := by
  have hb : s.takeButtons.stillOk = true := by
    rw [State.stillOk_iff] at h ⊢
    exact ScrollEngine.press_still _ h
  have hm : s.takeButtons.stepMove.stillOk = true := by
    unfold State.stepMove
    split
    · exact State.applyJump_still hb _
    · split
      · exact State.stillOk_of_zero rfl
      · split
        · exact State.stillOk_of_zero rfl
        · next hs => exact State.drive_still (by simpa using hs)
  exact State.stillOk_congr hm (by simp [State.scrollStep]) (by simp [State.scrollStep])

/-! #### Across edits (R43 to R45, R50) -/

/-- An anchor moved on an edit keeps v, and v is 0 where no line is left (R43). -/
theorem State.relocate_still {s : State} (h : s.stillOk = true) (r : ContentReport) : (s.relocate r).stillOk = true := by
  unfold State.relocate
  split
  · next lid ha =>
    split
    · dsimp only
      split
      · exact State.stillOk_of_zero rfl
      · next hn =>
        refine State.stillOk_of_kept h (by simp [State.moveAnchor_sce_eq]) ?_
        rintro (hst | han | hm)
        · exact .inl (by simpa [State.moveAnchor_sce_eq] using hst)
        · simp [State.moveAnchor_sce_eq] at han
          simp [han] at hn
        · exact .inr (.inr (by simpa using hm))
    · exact h
  · exact h

theorem State.endTest_still {s : State} (h : s.stillOk = true) : s.endTest.stillOk = true := by
  unfold State.endTest
  split
  · exact State.stillOk_of_kept h rfl id
  · exact h

/-- The first anchor of a script that was empty is a line (R45). -/
theorem State.firstAnchor_still {s : State} (h : s.stillOk = true) {r : ContentReport}
    (hr : r.nowEmpty = s.scs.order.isEmpty) : (s.firstAnchor r).stillOk = true := by
  unfold State.firstAnchor
  split
  · next hc =>
    have hne : s.scs.order ≠ [] := by simp_all
    obtain ⟨lid, rest, hcons⟩ := List.exists_cons_of_ne_nil hne
    have hline : s.scs.lineAt? 0 = some lid := by simp [Store.lineAt?, hcons]
    refine State.stillOk_of_kept h (by simp [State.moveAnchor_sce_eq]) ?_
    rintro (hst | han | hm)
    · exact .inl (by simpa [State.moveAnchor_sce_eq] using hst)
    · simp [State.moveAnchor_sce_eq, hline] at han
    · exact .inr (.inr (by simpa using hm))
  · exact h

theorem State.takeApply_still {s : State} (h : s.stillOk = true) {r : ContentReport}
    (hr : r.nowEmpty = s.scs.order.isEmpty) : (s.takeApply r).stillOk = true := by
  have hend := State.endTest_still (State.relocate_still h r)
  have hfirst := State.firstAnchor_still (r := r) hend (by simpa using hr)
  exact State.stillOk_congr hfirst (by simp [State.takeApply]) (by simp [State.takeApply])

theorem State.takeClear_still (s : State) : s.takeClear.stillOk = true :=
  State.stillOk_of_zero (by
    unfold State.takeClear State.consoleStopped State.anchorEmptied
    dsimp only
    (repeat' split) <;> simp [ScrollEngine.clearShow])

theorem State.applyEntry_still {s : State} (h : s.stillOk = true) (e : Entry) : (s.applyEntry e).stillOk = true := by
  have hraised : (({ s with scs := s.scs.applied e.edit e.lids } : State).raiseCommit .commitDone e.link e.tag none).stillOk
      = true := State.stillOk_congr h (by simp) (by simp)
  have htaken := State.takeApply_still (r := s.scs.report e.edit e.lids) hraised (by simp [Store.report])
  exact State.stillOk_congr htaken (by simp [State.applyEntry, State.takeReport, Store.report])
    (by simp [State.applyEntry, State.takeReport, Store.report])

end Sys2Proof.Machine

/-! PROOFS. The edit engine (chapter 7): what a pass, a copy completion, a cancel and a force come to, and v at rest
across them (R24). -/

namespace Sys2Proof.Machine

/-! ### What a pass comes to (R131) -/

/-- A queue entry evaluated again and left in the queue: it is the same entry, COPYING exactly where it was, and only what the
pass notes on it differs (R131). -/
def Reevaluates (e f : Entry) : Prop :=
  f = { e with state := f.state, deferredSent := f.deferredSent } ∧ (f.state = .copying ↔ e.state = .copying)

theorem reevaluates_refl (e : Entry) : Reevaluates e e := ⟨rfl, Iff.rfl⟩

/-- The notices of deferrals are all that a pass has done before the entry it removes: the links alone differ (R133). -/
def Noted (s u : State) : Prop := SameBut [.cli, .rli] s u

/-- What a pass over a queue, behind the entries already evaluated, comes to: every entry left where it was, or one entry
removed, with its failure, or applied (R131). -/
inductive PassEnds (s : State) (earlier rest : List Entry) : State → Prop where
  | kept (u : State) (q : List Entry) (hu : Noted s u) (hq : List.Forall₂ Reevaluates rest q) :
      PassEnds s earlier rest (u.setQueue (earlier ++ q))
  | removed (u : State) (before before' after : List Entry) (e : Entry) (cause : Cause) (detail : Nat) (hu : Noted s u)
      (hrest : rest = before ++ e :: after) (hq : List.Forall₂ Reevaluates before before') (he : e.state ≠ .copying)
      (hwait : waitsBehind (earlier ++ before') e = false)
      (hcheck : u.entryChecks e.link e.edit e.lids.length = some (cause, detail)) :
      PassEnds s earlier rest
        (((u.setQueue (earlier ++ before' ++ after)).recordRefusal e.link .ecmt cause detail).dropEntry e cause)
  | applied (u : State) (before before' after : List Entry) (e : Entry) (hu : Noted s u)
      (hrest : rest = before ++ e :: after) (hq : List.Forall₂ Reevaluates before before') (he : e.state ≠ .copying)
      (hwait : waitsBehind (earlier ++ before') e = false)
      (hcheck : u.entryChecks e.link e.edit e.lids.length = none)
      (hguard : ¬(u.msc.mode = .onAir ∧ u.meetsGuard e.edit = true)) :
      PassEnds s earlier rest ((u.setQueue (earlier ++ before' ++ after)).applyEntry e)

/-- A pass that goes on behind an entry it leaves in the queue. -/
theorem PassEnds.behind {s u t : State} {earlier rest : List Entry} {e f : Entry} (hu : Noted s u) (hf : Reevaluates e f)
    (h : PassEnds u (earlier ++ [f]) rest t) : PassEnds s earlier (e :: rest) t := by
  cases h with
  | kept v q hv hq =>
    simpa using PassEnds.kept (earlier := earlier) v (f :: q) (hu.trans hv) (.cons hf hq)
  | removed v before before' after x cause detail hv hrest hq he hwait hcheck =>
    simpa using PassEnds.removed (earlier := earlier) (rest := e :: rest) v (e :: before) (f :: before') after x cause
      detail (hu.trans hv) (by simp [hrest]) (.cons hf hq) he (by simpa using hwait) hcheck
  | applied v before before' after x hv hrest hq he hwait hcheck hguard =>
    simpa using PassEnds.applied (earlier := earlier) (rest := e :: rest) v (e :: before) (f :: before') after x
      (hu.trans hv) (by simp [hrest]) (.cons hf hq) he (by simpa using hwait) hcheck hguard

theorem State.noteDeferred_noted (s : State) (e : Entry) : Noted s (s.noteDeferred e) := by
  simp [Noted, sameBut_iff]

theorem State.passFrom_ends (s : State) (earlier rest : List Entry) :
    PassEnds s earlier rest (s.passFrom earlier rest) := by
  induction rest generalizing s earlier with
  | nil => simpa [State.passFrom] using PassEnds.kept (earlier := earlier) s [] (.refl _ _) .nil
  | cons e rest ih =>
    unfold State.passFrom
    split
    · exact (ih _ _).behind (.refl _ _) (reevaluates_refl e)
    · next hc =>
      split
      · exact (ih _ _).behind (.refl _ _) ⟨rfl, by simp [hc]⟩
      · next hw =>
        have hw : waitsBehind earlier e = false := by simpa using hw
        split
        · next cause detail hcheck =>
          simpa using PassEnds.removed (earlier := earlier) s [] [] rest e cause detail (.refl _ _) rfl .nil hc
            (by simpa using hw) hcheck
        · next hcheck =>
          split
          · exact (ih _ _).behind (s.noteDeferred_noted e) ⟨rfl, by simp [hc]⟩
          · next hg =>
            simpa using PassEnds.applied (earlier := earlier) s [] [] rest e (.refl _ _) rfl .nil hc
              (by simpa using hw) hcheck hg

theorem State.pass_ends (s : State) : PassEnds s [] s.ede.queue s.pass := s.passFrom_ends [] s.ede.queue

/-! ### v at rest across the edit engine's events (R24) -/

theorem Noted.still {s u : State} (h : Noted s u) (hs : s.stillOk = true) : u.stillOk = true :=
  dependsOn_stillOk.keep (by decide) h hs

theorem State.pass_still {s : State} (h : s.stillOk = true) : s.pass.stillOk = true := by
  have hends := s.pass_ends
  generalize s.pass = t at hends
  cases hends with
  | kept u q hu => exact State.stillOk_congr (hu.still h) (by simp) (by simp)
  | removed u => exact State.stillOk_congr ((‹Noted s u›).still h) (by simp) (by simp)
  | applied u _ _ _ e =>
    exact State.applyEntry_still (State.stillOk_congr ((‹Noted s u›).still h) (by simp) (by simp)) e

theorem State.copyDone_still {s : State} (h : s.stillOk = true) (l : Link) (page : Page) (e : Entry) :
    (s.copyDone l page e).stillOk = true := by
  unfold State.copyDone
  dsimp only
  split
  · exact State.stillOk_congr h (by simp) (by simp)
  · exact State.pass_still (State.stillOk_congr h (by simp) (by simp))

theorem State.startCopy_still {s : State} (h : s.stillOk = true) (l : Link) (tag : Byte) (e : EditParams) (n : Nat)
    (page : Page) (st : Store) (lids : List Nat) : (s.startCopy l tag e n page st lids).stillOk = true := by
  have haccept : (s.acceptCommit l tag e n page st lids).stillOk = true :=
    dependsOn_stillOk.keep (by decide) (s.acceptCommit_sameBut _ _ _ _ _ _ _) h
  unfold State.startCopy
  dsimp only
  split
  · exact State.copyDone_still haccept ..
  · exact haccept

theorem doEcmt_still {s : State} (h : s.stillOk = true) (l : Link) (tag : Byte) : (doEcmt l tag s).1.stillOk = true := by
  unfold doEcmt
  split
  · split
    · exact h
    · split
      · exact h
      · exact State.startCopy_still h ..
  · exact h

theorem State.forceEntry_still {s : State} (h : s.stillOk = true) (l : Link) (e : Entry) :
    (s.forceEntry l e).1.stillOk = true := by
  unfold State.forceEntry
  dsimp only
  split
  · exact State.stillOk_congr h (by simp [refuse]) (by simp [refuse])
  · split
    · exact State.stillOk_congr h (by simp [refuse]) (by simp [refuse])
    · exact State.applyEntry_still (State.stillOk_congr h (by simp) (by simp)) e

theorem doQfrc_still {s : State} (h : s.stillOk = true) (l : Link) (el et : Nat) :
    (doQfrc l el et s).1.stillOk = true := by
  have hrefuse (c d) : (refuse s l .qfrc c d).1.stillOk = true :=
    dependsOn_stillOk.keep (by decide) (refuse_sameBut _ _ _ _ _) h
  unfold doQfrc
  split
  · exact h
  · split
    · exact hrefuse ..
    · split
      · exact State.forceEntry_still h ..
      · exact hrefuse ..

/-! ### v at rest across modes, settings and parameters (R24, R49) -/

/-- A change of mode leaves the engine alone but for v, which is 0 in SETUP (R49). -/
theorem State.changeMode_sce (s : State) (m : Mode) :
    (s.changeMode m).sce = if m = .setup then { s.sce with velocity := 0 } else s.sce := by
  unfold State.changeMode State.modeRest
  dsimp only
  split <;> simp

theorem State.changeMode_mode (s : State) (m : Mode) : (s.changeMode m).msc.mode = m := by
  unfold State.changeMode State.modePorts State.stopPlayer
  dsimp only
  split <;> simp

theorem State.changeMode_still {s : State} (h : s.stillOk = true) {m : Mode} (hm : m ≠ .loading) :
    (s.changeMode m).stillOk = true := by
  by_cases hset : m = .setup
  · exact State.stillOk_of_zero (by simp [State.changeMode_sce, hset])
  · refine State.stillOk_of_kept h (by simp [State.changeMode_sce, hset]) ?_
    rw [State.changeMode_sce, if_neg hset, State.changeMode_mode]
    rintro (hst | han | hsus)
    · exact .inl hst
    · exact .inr (.inl han)
    · simp [Mode.suspended, hm, hset] at hsus

theorem modePermitted_loading (m : Mode) : modePermitted m .loading = false := by cases m <;> rfl

theorem doMode_still {s : State} (h : s.stillOk = true) (l : Link) (code : Nat) : (doMode l code s).1.stillOk = true := by
  unfold doMode
  split
  · exact h
  · next m _ =>
    split
    · exact h
    · split
      · exact h
      · split
        · next hp =>
          exact State.changeMode_still h (by rintro rfl; simp [modePermitted_loading] at hp)
        · exact dependsOn_stillOk.keep (by decide) (refuse_sameBut _ _ _ _ _) h

theorem State.leaveLoading_still {s : State} (h : s.stillOk = true) : s.leaveLoading.stillOk = true := by
  unfold State.leaveLoading
  split
  · exact State.changeMode_still h (by decide)
  · exact h

/-- The owners' values leave the engine alone but for its slew limits, and the mode as it was (R35, R164). -/
theorem State.takeSettings_sce (s : State) (v : Settings) :
    (s.takeSettings v).sce = { s.sce with accel := v.accel, decel := v.decel } := by
  simp [State.takeSettings]

theorem State.takeSettings_still {s : State} (h : s.stillOk = true) (v : Settings) : (s.takeSettings v).stillOk = true :=
  State.stillOk_of_kept h (by simp [State.takeSettings_sce])
    (by simp [State.takeSettings_sce, ScrollEngine.rests])

theorem State.takeDefaults_still {s : State} (h : s.stillOk = true) : s.takeDefaults.stillOk = true :=
  State.stillOk_congr (State.takeSettings_still h Settings.defaults) (by simp [State.takeDefaults])
    (by simp [State.takeDefaults])

theorem State.takeImage_still {s : State} (h : s.stillOk = true) (image : List Word16) :
    (s.takeImage image).stillOk = true := by
  unfold State.takeImage
  split
  · exact State.stillOk_congr (State.takeSettings_still h (settingsOf image)) (by simp) (by simp)
  · exact State.takeDefaults_still h

theorem State.writeParam_still {s : State} (h : s.stillOk = true) (p : Param) (v : Nat) :
    (s.writeParam p v).1.stillOk = true := by
  have hmsc : (s.writeParam p v).1.msc = s.msc := s.writeParam_sameBut p v .msc (by decide)
  cases p with
  | accel | decel => exact State.stillOk_of_kept h rfl id
  | centre n | deadband n | reverse n =>
    refine State.stillOk_congr h ?_ (by rw [hmsc])
    simp only [State.writeParam, State.tune]; split <;> simp
  | frameRate | outFraming o =>
    refine State.stillOk_congr h ?_ (by rw [hmsc])
    simp only [State.writeParam, State.writeOutput]; split <;> simp
  | paceMin =>
    refine State.stillOk_congr h ?_ (by rw [hmsc])
    simp only [State.writeParam, State.writePaceMin]; split <;> simp
  | _ =>
    refine State.stillOk_congr h ?_ (by rw [hmsc])
    simp [State.writeParam, State.writePaceMax, State.writeGeometry, State.writeOutput]

theorem doParm_still {s : State} (h : s.stillOk = true) (n : Nat) (i : Option Nat) (v : Nat) :
    (doParm n i v s).1.stillOk = true := by
  unfold doParm
  split
  · exact State.writeParam_still h ..
  · exact h

/-! ### The requests and events that leave the mode and the engine's rest alone -/

theorem doMspd_still {s : State} (h : s.stillOk = true) (v : Int) : (doMspd v s).1.stillOk = true := by
  unfold doMspd State.setManualSpeed
  dsimp only
  split
  · exact State.stillOk_of_kept h rfl id
  · exact State.stillOk_of_kept h (by simp) (by simp [ScrollEngine.rests])

theorem doJump_still {s : State} (h : s.stillOk = true) (l : Link) (k p : Nat) : (doJump l k p s).1.stillOk = true := by
  unfold doJump
  split
  · exact h
  · split
    · exact State.stillOk_of_kept h rfl id
    · exact h

/-- The requests of the controller that leave the mode as it is. -/
theorem serve_mode {r : Request} (hr : ∀ m, r ≠ .mode m) (l : Link) (tag : Byte) (s : State) :
    (serve l tag r s).1.msc.mode = s.msc.mode := by
  by_cases hb : .msc ∈ ownerBlocks r
  · cases r with
    | mode m => exact absurd rfl (hr m)
    | save => simp only [serve, answered, doSave]; (repeat' split) <;> rfl
    | load => simp only [serve, answered, doLoad]; (repeat' split) <;> rfl
    | dgld f es n => simp only [serve, answered, doDgld]; (repeat' split) <;> rfl
    | dgrn a loop =>
      simp only [serve, answered, doDgrn, State.runPlayer, State.startPlayer, State.haltPlayer, State.stopPlayer, refuse]
      (repeat' split) <;> simp
    | _ => simp [ownerBlocks] at hb
  · have := serve_sameBut l tag r s .msc hb
    rw [show (serve l tag r s).1.msc = s.msc from this]

theorem serve_still {s : State} (h : s.stillOk = true) (l : Link) (tag : Byte) (r : Request) :
    (serve l tag r s).1.stillOk = true := by
  by_cases hb : .sce ∈ ownerBlocks r
  · cases r with
    | clrs => exact State.stillOk_congr (State.takeClear_still _) rfl rfl
    | mspd v => exact doMspd_still h v
    | frze => exact State.changeScroll_still (ScrollEngine.toggleFreeze_still ((s.stillOk_iff).1 h))
    | thaw => exact State.changeScroll_still (ScrollEngine.thaw_still ((s.stillOk_iff).1 h))
    | rels => exact State.changeScroll_still (ScrollEngine.release_still ((s.stillOk_iff).1 h))
    | jump k p => exact doJump_still h l k p
    | parm n i v => exact doParm_still h n i v
    | ecmt => exact doEcmt_still h l tag
    | qfrc el et => exact doQfrc_still h l el et
    | mode m => exact doMode_still h l m
    | _ => simp [ownerBlocks] at hb
  · refine State.stillOk_congr h (serve_sameBut l tag r s .sce hb) (serve_mode ?_ l tag s)
    rintro m rfl
    exact hb (by simp [ownerBlocks])

theorem exec_still {c : Instr} (hb : apart [.sce, .msc] (eventBlocks c) = false) {s : State} (h : s.stillOk = true) :
    Ends (fun u => u.stillOk = true) (exec c s) := by
  cases c with
  | resetLine n => exact ends_finish (State.stillOk_of_zero rfl)
  | resetRelease w => dsimp only [exec, execResetRelease]; split <;> exact ends_finish h
  | loadCompletion w image =>
    dsimp only [exec, execLoadCompletion]
    split
    · have hread : ({ s.reach w with mem := memoryAtLoad s.mem image } : State).stillOk = true := h
      exact ends_finish (State.leaveLoading_still (State.takeImage_still hread _))
    · exact ends_finish h
  | settingsLoadTimeout w =>
    dsimp only [exec, execSettingsLoadTimeout]
    split
    · have hreach : (s.reach w).stillOk = true := h
      exact ends_finish (State.leaveLoading_still (State.takeDefaults_still hreach))
    · exact ends_finish h
  | saveCompletion back => dsimp only [exec, execSaveCompletion]; (repeat' split) <;> exact ends_finish h
  | saveTimeout n => dsimp only [exec, execSaveTimeout]; split <;> exact ends_finish h
  | scrollStep => exact ends_finish (State.scrollStep_still (State.stillOk_congr h rfl rfl))
  | playerTick =>
    dsimp only [exec, execPlayerTick, State.playerTick, State.stopPlayer]
    (repeat' split) <;> exact ends_finish (State.stillOk_congr h (by simp) (by simp))
  | copyCompletion l =>
    dsimp only [exec, execCopyCompletion]
    (repeat' split)
    · exact ends_finish (State.copyDone_still h ..)
    · exact ends_finish (State.stillOk_congr h (by simp) (by simp))
    · exact ends_finish h
  | queuePass => exact ends_finish (State.pass_still h)
  | _ => cases hb

/-- Settles O8. -/
theorem stepKeepsStillness : Obligations.StepKeepsStillness :=
  step_keeps dependsOn_stillOk (by decide) (fun _ _ h => h) (fun l tag r _ _ _ h => serve_still h l tag r)
    (fun _ _ _ hb h => exec_still hb h)

end Sys2Proof.Machine

/-! PROOFS. The authority arbiter (chapter 3): the arbiter agrees with its inputs after every step (R55, R56, R59). -/

namespace Sys2Proof.Machine

/-! ### What the arbiter's agreement looks at -/

/-- Two states with the same mode between REHEARSAL and ON_AIR or equal, the same inputs at the ports, and the same activity of
CONSOLE and AUTO (R53, R54). -/
structure SameInputs (s t : State) : Prop where
  suspended : t.msc.mode.suspended = s.msc.mode.suspended
  diagnostic : t.msc.mode = .diagnostic ↔ s.msc.mode = .diagnostic
  ports : ∀ n, (t.port n).inputs = (s.port n).inputs
  console : t.sce.manualSpeed = 0 ↔ s.sce.manualSpeed = 0
  auto : t.tbp.autoMode = .off ↔ s.tbp.autoMode = .off

/-- Two states whose arbiters differ in the hold-over value alone (R69). -/
def SameGrant (s t : State) : Prop := t.aua = { s.aua with holdOverValue := t.aua.holdOverValue }

theorem HandPort.inputs_eq {p q : HandPort} (h : p.inputs = q.inputs) :
    (p.state = .live ↔ q.state = .live) ∧ p.driven = q.driven ∧ (p.latch.demand ≠ 0 ↔ q.latch.demand ≠ 0) ∧
      p.latch.claim = q.latch.claim := by
  simpa only [HandPort.inputs, Prod.mk.injEq, decide_eq_decide] using h

theorem SameInputs.portCounts {s t : State} (h : SameInputs s t) (n : Fin 4) : t.portCounts n = s.portCounts n := by
  obtain ⟨hlive, hdriven, -, -⟩ := HandPort.inputs_eq (h.ports n)
  simp [State.portCounts, hlive, hdriven, h.diagnostic]

theorem SameInputs.active {s t : State} (h : SameInputs s t) (src : Source) : t.active src = s.active src := by
  cases src with
  | console => simp [State.active, h.console]
  | hand n =>
    obtain ⟨-, -, hdemand, hclaim⟩ := HandPort.inputs_eq (h.ports n)
    have hz : (t.port n).latch.demand = 0 ↔ (s.port n).latch.demand = 0 := not_iff_not.1 hdemand
    simp [State.active, hz, hclaim]
  | auto => simp [State.active, h.auto]

theorem SameInputs.eligible {s t : State} (h : SameInputs s t) (ha : SameGrant s t) (src : Source) :
    t.eligible src = s.eligible src := by
  have hentry : t.aua.entry src = s.aua.entry src := by rw [ha]; cases src <;> rfl
  have hthreshold : t.aua.threshold = s.aua.threshold := by rw [ha]
  unfold State.eligible
  rw [hentry, hthreshold]
  cases src <;> simp [h.portCounts]

/-- The arbiter agrees with its inputs still where neither the grant nor an input has changed. -/
theorem State.authorityOk_of_same {s t : State} (h : s.authorityOk = true) (ha : SameGrant s t) (hi : SameInputs s t) :
    t.authorityOk = true := by
  have hholder : t.aua.holder = s.aua.holder := by rw [ha]
  have hlock : t.aua.lock = s.aua.lock := by rw [ha]
  have hover : t.aua.inHoldOver = s.aua.inHoldOver := by rw [ha]
  have hcount : t.aua.count = s.aua.count := by rw [ha]
  have hun : t.unlockedOk = s.unlockedOk := by
    unfold State.unlockedOk
    simp only [hholder, hover, hcount, hi.eligible ha, hi.active]
  unfold State.authorityOk at h ⊢
  simpa only [hi.suspended, hlock, hholder, hover, hcount, hun] using h

/-- The same blocks hold the same inputs. -/
theorem SameInputs.of_eq {s t : State} (hm : t.msc.mode = s.msc.mode) (hp : t.ports = s.ports)
    (hc : t.sce.manualSpeed = s.sce.manualSpeed) (ha : t.tbp.autoMode = s.tbp.autoMode) : SameInputs s t :=
  ⟨by rw [hm], by rw [hm], fun n => by rw [State.port, hp, State.port], by rw [hc], by rw [ha]⟩

theorem State.authorityOk_congr {s t : State} (h : s.authorityOk = true) (ha : t.aua = s.aua)
    (hm : t.msc.mode = s.msc.mode) (hp : t.ports = s.ports) (hc : t.sce.manualSpeed = s.sce.manualSpeed)
    (hx : t.tbp.autoMode = s.tbp.autoMode) : t.authorityOk = true :=
  State.authorityOk_of_same h (by rw [SameGrant, ha]) (.of_eq hm hp hc hx)

theorem dependsOn_authorityOk : DependsOn [.msc, .aua, .ports, .sce, .tbp] (fun s => s.authorityOk = true) := by
  intro s t h hs
  have hmsc : t.msc = s.msc := h .msc (by simp)
  have haua : t.aua = s.aua := h .aua (by simp)
  have hports : t.ports = s.ports := h .ports (by simp)
  have hsce : t.sce = s.sce := h .sce (by simp)
  have htbp : t.tbp = s.tbp := h .tbp (by simp)
  exact State.authorityOk_congr hs haua (by rw [hmsc]) hports (by rw [hsce]) (by rw [htbp])

/-! ### Ports (R77, R82, R87) -/

/-- A port replaced: the grant stands where its inputs do, else it is re-evaluated (R55). -/
theorem State.changePort_authority {s : State} (h : s.authorityOk = true) (n : Fin 4) (p : HandPort) :
    (s.changePort n p).authorityOk = true := by
  unfold State.changePort
  split
  · next hi =>
    refine State.authorityOk_of_same h rfl ⟨rfl, Iff.rfl, fun m => ?_, Iff.rfl, Iff.rfl⟩
    rw [State.setPort_port]
    split
    · next hm => rw [hi, hm]
    · rfl
  · exact State.regrant_authorityOk _

theorem State.takePort_authority {s : State} (h : s.authorityOk = true) (n : Fin 4) (p : HandPort) :
    (s.takePort n p).authorityOk = true := by
  unfold State.takePort
  dsimp only
  refine State.changePort_authority ?_ n p
  split
  · exact h
  · exact h

theorem State.clearLatches_authority {s : State} (h : s.authorityOk = true) : s.clearLatches.authorityOk = true := by
  rcases s.clearLatches_cases with ⟨hc, hsame⟩ | ⟨hc, -⟩ <;> rw [hc]
  · refine State.authorityOk_of_same h rfl ⟨rfl, Iff.rfl, fun n => ?_, Iff.rfl, Iff.rfl⟩
    have hport : ({ s with ports := s.ports.map HandPort.cleared } : State).port n = (s.port n).cleared := by
      simp [State.port]
    rw [hport, hsame n]
  · exact State.regrant_authorityOk _

theorem State.stopPlayer_authority {s : State} (h : s.authorityOk = true) : s.stopPlayer.authorityOk = true :=
  State.clearLatches_authority (s := { s with msc := { s.msc with player := { s.msc.player with running := false } } })
    (State.authorityOk_congr h rfl rfl rfl rfl rfl)

theorem State.haltPlayer_authority {s : State} (h : s.authorityOk = true) : s.haltPlayer.authorityOk = true := by
  unfold State.haltPlayer
  split
  · exact State.stopPlayer_authority h
  · exact h

/-- The player's records decide no source (R86). -/
theorem releasedRecords_inputs (ports : Four HandPort) (n : Fin 4) :
    ((releasedRecords ports).get n).inputs = (ports.get n).inputs := by
  simp [releasedRecords, HandPort.inputs]

theorem State.startPlayer_authority {s : State} (h : s.authorityOk = true) (loop : Bool) :
    (s.startPlayer loop).authorityOk = true := by
  refine State.authorityOk_of_same (State.haltPlayer_authority h) rfl ⟨rfl, Iff.rfl, fun n => ?_, Iff.rfl, Iff.rfl⟩
  exact releasedRecords_inputs s.haltPlayer.ports n

/-! ### The tick (R60) -/

theorem State.authorityOk_holdOver {s : State} (h : s.authorityOk = true) (ho : s.aua.inHoldOver = true) :
    s.msc.mode.suspended = false ∧ s.aua.lock = none ∧ s.unlockedOk = true := by
  unfold State.authorityOk at h
  split at h
  · simp [ho] at h
  · next hm =>
    split at h
    · simp [ho] at h
    · next hl => exact ⟨by simpa using hm, hl, h⟩

/-- A choice among candidates with no lock in force agrees with the inputs (R57). -/
theorem State.takeBest_authority {s : State} (hm : s.msc.mode.suspended = false) (hl : s.aua.lock = none)
    (floor : Nat) : (s.takeGrant (Grant.plain (s.best floor))).authorityOk = true := by
  have he := s.takeGrant_eligible (Grant.plain (s.best floor))
  have ha := s.takeGrant_active (Grant.plain (s.best floor))
  cases hb : s.best floor with
  | none => simp [State.authorityOk, hm, hl, State.unlockedOk, Grant.plain]
  | some b =>
    obtain ⟨h1, h2, -⟩ := State.candidate_eligible (State.best_some hb)
    rw [hb] at he ha
    have heb := (he b).trans h1
    have hab := (ha b).trans h2
    simp_all [State.authorityOk, State.unlockedOk, Grant.plain]

theorem State.holdOverTick_authority {s : State} (h : s.authorityOk = true) (ho : s.aua.inHoldOver = true) :
    s.holdOverTick.authorityOk = true := by
  obtain ⟨hm, hl, hun⟩ := State.authorityOk_holdOver h ho
  unfold State.holdOverTick
  split
  · exact State.takeBest_authority hm hl 0
  · have hentry (src) : State.eligible { s with aua := { s.aua with count := s.aua.count - 1 } } src = s.eligible src :=
      State.eligible_congr rfl rfl rfl (by cases src <;> rfl)
    have hactive (src) : State.active { s with aua := { s.aua with count := s.aua.count - 1 } } src = s.active src :=
      State.active_congr rfl rfl rfl src
    unfold State.unlockedOk at hun
    cases hh : s.aua.holder with
    | none => simp [hh, ho] at hun
    | some b =>
      have heb := hentry b
      have hab := hactive b
      simp_all [State.authorityOk, State.unlockedOk]

/-! ### The speeds an engine keeps -/

/-- The console's speed and the slew limits stand (R35, R36). -/
def SpeedsKept (e f : ScrollEngine) : Prop :=
  f.manualSpeed = e.manualSpeed ∧ f.accel = e.accel ∧ f.decel = e.decel

theorem SpeedsKept.refl (e : ScrollEngine) : SpeedsKept e e := ⟨rfl, rfl, rfl⟩

theorem SpeedsKept.trans {e f g : ScrollEngine} (h : SpeedsKept e f) (k : SpeedsKept f g) : SpeedsKept e g :=
  ⟨k.1.trans h.1, k.2.1.trans h.2.1, k.2.2.trans h.2.2⟩

theorem ScrollEngine.press_speeds (e : ScrollEngine) (b : Edges) : SpeedsKept e (e.press b) := by
  unfold ScrollEngine.press ScrollEngine.release ScrollEngine.toggleFreeze
  dsimp only
  (repeat' split) <;> exact ⟨rfl, rfl, rfl⟩

theorem State.moveAnchor_speeds (s : State) (a : Option Nat) (f : Nat) : SpeedsKept s.sce (s.moveAnchor a f).sce := by
  rw [State.moveAnchor_sce_eq]; exact ⟨rfl, rfl, rfl⟩

theorem State.stepMove_speeds (s : State) : SpeedsKept s.sce s.stepMove.sce := by
  unfold State.stepMove
  split
  · rw [State.applyJump_sce]
    split <;> exact ⟨rfl, rfl, rfl⟩
  · split
    · exact ⟨rfl, rfl, rfl⟩
    · split
      · exact ⟨rfl, rfl, rfl⟩
      · rw [State.drive, State.integrate_sce]
        split
        · rw [State.takeLanding_sce]; exact ⟨rfl, rfl, rfl⟩
        · exact ⟨rfl, rfl, rfl⟩

theorem State.scrollStep_speeds (s : State) : SpeedsKept s.sce s.scrollStep.sce := by
  have hpress : SpeedsKept s.sce s.takeButtons.sce := s.sce.press_speeds _
  simpa [State.scrollStep] using hpress.trans s.takeButtons.stepMove_speeds

/-- What an apply leaves of the engine: anchor, fraction and current story may change, the fraction to 0 and v to 0 only; all
else stands (R43 to R45). -/
def ApplyTook (e f : ScrollEngine) : Prop :=
  f = { e with anchor := f.anchor, fraction := f.fraction, velocity := f.velocity, currentStory := f.currentStory } ∧
    (f.fraction = e.fraction ∨ f.fraction = 0) ∧ (f.velocity = e.velocity ∨ f.velocity = 0)

theorem ApplyTook.refl (e : ScrollEngine) : ApplyTook e e := ⟨rfl, .inl rfl, .inl rfl⟩

theorem ApplyTook.trans {e f g : ScrollEngine} (h : ApplyTook e f) (k : ApplyTook f g) : ApplyTook e g := by
  obtain ⟨hf, hff, hfv⟩ := h
  obtain ⟨hg, hgf, hgv⟩ := k
  refine ⟨?_, ?_, ?_⟩
  · rw [hg, hf]
  · rcases hgf with hgf | hgf
    · rw [hgf]; exact hff
    · exact .inr hgf
  · rcases hgv with hgv | hgv
    · rw [hgv]; exact hfv
    · exact .inr hgv

theorem State.moveAnchor_applyTook (s : State) (a : Option Nat) : ApplyTook s.sce (s.moveAnchor a 0).sce := by
  rw [State.moveAnchor_sce_eq]; exact ⟨rfl, .inr rfl, .inl rfl⟩

theorem State.relocate_applyTook (s : State) (r : ContentReport) : ApplyTook s.sce (s.relocate r).sce := by
  unfold State.relocate
  split
  · split
    · dsimp only
      split
      · exact (s.moveAnchor_applyTook _).trans ⟨rfl, .inl rfl, .inr rfl⟩
      · exact s.moveAnchor_applyTook _
    · exact .refl _
  · exact .refl _

theorem State.endTest_applyTook (s : State) : ApplyTook s.sce s.endTest.sce := by
  unfold State.endTest
  split
  · exact ⟨rfl, .inr rfl, .inl rfl⟩
  · exact .refl _

theorem State.firstAnchor_applyTook (s : State) (r : ContentReport) : ApplyTook s.sce (s.firstAnchor r).sce := by
  unfold State.firstAnchor
  split
  · exact s.moveAnchor_applyTook _
  · exact .refl _

theorem State.takeApply_applyTook (s : State) (r : ContentReport) : ApplyTook s.sce (s.takeApply r).sce := by
  simpa [State.takeApply] using
    ((s.relocate_applyTook r).trans (s.relocate r).endTest_applyTook).trans ((s.relocate r).endTest.firstAnchor_applyTook r)

theorem State.applyEntry_applyTook (s : State) (e : Entry) : ApplyTook s.sce (s.applyEntry e).sce := by
  have htake := State.takeApply_applyTook
    (({ s with scs := s.scs.applied e.edit e.lids } : State).raiseCommit .commitDone e.link e.tag none)
    (s.scs.report e.edit e.lids)
  simpa [State.applyEntry, State.takeReport, Store.report] using htake

theorem State.pass_applyTook (s : State) : ApplyTook s.sce s.pass.sce := by
  have hends := s.pass_ends
  generalize s.pass = t at hends
  cases hends with
  | kept u q hu =>
    have hsce : u.sce = s.sce := hu .sce (by decide)
    simpa [hsce] using ApplyTook.refl s.sce
  | removed u =>
    have hsce : u.sce = s.sce := (‹Noted s u›) .sce (by decide)
    simpa [hsce] using ApplyTook.refl s.sce
  | applied u before before' after e =>
    have hsce : u.sce = s.sce := (‹Noted s u›) .sce (by decide)
    have htook := State.applyEntry_applyTook (u.setQueue ([] ++ before' ++ after)) e
    rwa [State.setQueue_sce, hsce] at htook

/-- The page in the reserved lines and the slot CLOSED: a completed copy before its entry is judged (R128). -/
def State.pageCopied (s : State) (l : Link) (page : Page) (e : Entry) : State :=
  { s with scs := s.scs.writePage e.lids page }.setSlot l .closed

theorem State.pageCopied_sameBut (s : State) (l : Link) (page : Page) (e : Entry) :
    SameBut [.scs, .ede] s (s.pageCopied l page e) := by
  simp [sameBut_iff, State.pageCopied]

/-- A completed copy removes a marked entry, and goes into a pass with any other (R128). -/
theorem State.copyDone_eq (s : State) (l : Link) (page : Page) (e : Entry) :
    s.copyDone l page e =
      if e.cancelMarked then ((s.pageCopied l page e).setQueue (withoutEntry s.ede.queue e.link e.tag)).dropEntry e .cancelled
      else ((s.pageCopied l page e).setQueue
        (changeEntry s.ede.queue e.link e.tag (fun x => { x with state := .waiting }))).pass := rfl

theorem State.copyDone_applyTook (s : State) (l : Link) (page : Page) (e : Entry) :
    ApplyTook s.sce (s.copyDone l page e).sce := by
  have hsce : (s.pageCopied l page e).sce = s.sce := s.pageCopied_sameBut l page e .sce (by decide)
  rw [State.copyDone_eq]
  split
  · simpa [hsce] using ApplyTook.refl s.sce
  · rw [← hsce]
    exact State.pass_applyTook (State.setQueue _ _)

theorem State.startCopy_applyTook (s : State) (l : Link) (tag : Byte) (e : EditParams) (n : Nat) (page : Page)
    (st : Store) (lids : List Nat) : ApplyTook s.sce (s.startCopy l tag e n page st lids).sce := by
  have haccept : (s.acceptCommit l tag e n page st lids).sce = s.sce :=
    s.acceptCommit_sameBut l tag e n page st lids .sce (by decide)
  unfold State.startCopy
  dsimp only
  split
  · rw [← haccept]; exact State.copyDone_applyTook ..
  · rw [haccept]; exact .refl _

theorem doEcmt_applyTook (l : Link) (tag : Byte) (s : State) : ApplyTook s.sce (doEcmt l tag s).1.sce := by
  unfold doEcmt
  split
  · split
    · exact .refl _
    · split
      · exact .refl _
      · exact s.startCopy_applyTook ..
  · exact .refl _

theorem doQfrc_applyTook (l : Link) (el et : Nat) (s : State) : ApplyTook s.sce (doQfrc l el et s).1.sce := by
  have hforce (e : Entry) : ApplyTook s.sce (s.forceEntry l e).1.sce := by
    unfold State.forceEntry
    dsimp only
    split
    · exact .refl _
    · split
      · simpa [refuse] using ApplyTook.refl s.sce
      · simpa using State.applyEntry_applyTook (s.setQueue (withoutEntry s.ede.queue e.link e.tag)) e
  unfold doQfrc
  split
  · exact .refl _
  · split
    · exact .refl _
    · split
      · exact hforce _
      · exact .refl _

theorem ApplyTook.speeds {e f : ScrollEngine} (h : ApplyTook e f) : SpeedsKept e f := by
  rw [h.1]; exact ⟨rfl, rfl, rfl⟩

/-! ### The arbiter across the other blocks' events -/

/-- An event that keeps the arbiter's own fields and the console's speed, at most emptying button latches. -/
theorem State.authorityOk_of_speeds {s t : State} (h : s.authorityOk = true) (ha : t.aua = s.aua)
    (hm : t.msc.mode = s.msc.mode) (hp : ∀ n, (t.port n).inputs = (s.port n).inputs) (hs : SpeedsKept s.sce t.sce)
    (hx : t.tbp.autoMode = s.tbp.autoMode) : t.authorityOk = true :=
  State.authorityOk_of_same h (by rw [SameGrant, ha])
    ⟨by rw [hm], by rw [hm], hp, by rw [hs.1], by rw [hx]⟩

theorem State.scrollStep_authority {s : State} (h : s.authorityOk = true) : s.scrollStep.authorityOk = true := by
  refine State.authorityOk_of_speeds h (by simp) (by simp) (fun n => ?_) s.scrollStep_speeds (by simp)
  have hport : s.scrollStep.port n = { s.port n with buttons := Edges.none } := by simp [State.port, State.scrollStep]
  rw [hport]
  rfl

/-- An apply leaves what the arbiter looks at. -/
theorem State.authorityOk_of_apply {s t : State} (h : s.authorityOk = true) (hs : SpeedsKept s.sce t.sce)
    (hb : SameBut [.scs, .ede, .sce, .wst, .cli, .rli] s t) : t.authorityOk = true := by
  have haua : t.aua = s.aua := hb .aua (by decide)
  have hmsc : t.msc = s.msc := hb .msc (by decide)
  have hports : t.ports = s.ports := hb .ports (by decide)
  have htbp : t.tbp = s.tbp := hb .tbp (by decide)
  exact State.authorityOk_of_speeds h haua (by rw [hmsc]) (fun n => by rw [State.port, hports, State.port]) hs
    (by rw [htbp])

theorem State.takeClear_authority {s : State} (h : s.authorityOk = true) : s.takeClear.authorityOk = true := by
  unfold State.takeClear State.consoleStopped
  dsimp only
  split
  · next hz =>
    refine State.authorityOk_congr h (by simp [State.anchorEmptied_frame]) (by simp) (by simp) ?_ (by simp)
    simp [ScrollEngine.clearShow, hz]
  · exact State.regrant_authorityOk _

theorem doMspd_authority {s : State} (h : s.authorityOk = true) (v : Int) : (doMspd v s).1.authorityOk = true := by
  unfold doMspd State.setManualSpeed
  dsimp only
  split
  · next hz => exact State.authorityOk_of_same h rfl ⟨rfl, Iff.rfl, fun _ => rfl, hz, Iff.rfl⟩
  · exact State.regrant_authorityOk _

theorem doAmod_authority {s : State} (h : s.authorityOk = true) (m : Nat) (c : Option Nat) :
    (doAmod m c s).1.authorityOk = true := by
  unfold doAmod
  split
  · exact h
  · have hc : (s.setConstant? c).authorityOk = true ∧ (s.setConstant? c).tbp.autoMode = s.tbp.autoMode := by
      cases c <;> exact ⟨h, rfl⟩
    dsimp only [State.setAutoMode]
    split
    · next hz => exact State.authorityOk_of_same hc.1 rfl ⟨rfl, Iff.rfl, fun _ => rfl, Iff.rfl, hz⟩
    · exact State.regrant_authorityOk _

theorem doLock_authority {s : State} (h : s.authorityOk = true) (n : Nat) : (doLock n s).1.authorityOk = true := by
  unfold doLock
  split
  · exact h
  · exact State.regrant_authorityOk _

theorem doSrcs_authority {s : State} (h : s.authorityOk = true) (n : Nat) (on : Bool) (p : Nat) :
    (doSrcs n on p s).1.authorityOk = true := by
  unfold doSrcs
  split
  · exact h
  · exact State.regrant_authorityOk _

/-- A change of mode keeps the arbiter in agreement: only between REHEARSAL and ON_AIR does the grant stand, and there no input
changes (R68). -/
theorem State.changeMode_authority {s : State} (h : s.authorityOk = true) (m : Mode) :
    (s.changeMode m).authorityOk = true := by
  have hgrant (u : State) (hu : u.authorityOk = true) : (u.passFollows.trigger).authorityOk = true :=
    State.authorityOk_congr hu (by simp) (by simp) (by simp) (by simp) (by simp)
  unfold State.changeMode State.modeGrant
  dsimp only
  refine hgrant _ ?_
  split
  · next hair =>
    refine State.authorityOk_of_same h ?_ ?_
    · rcases hair with ⟨ho, rfl⟩ | ⟨ho, rfl⟩ <;> simp [State.modeRest, State.modePorts, ho, SameGrant]
    · rcases hair with ⟨ho, rfl⟩ | ⟨ho, rfl⟩ <;>
        constructor <;> simp [State.modeRest, State.modePorts, ho, Mode.suspended, State.port]
  · exact State.regrant_authorityOk _

theorem doMode_authority {s : State} (h : s.authorityOk = true) (l : Link) (code : Nat) :
    (doMode l code s).1.authorityOk = true := by
  unfold doMode
  (repeat' split)
  · exact h
  · exact h
  · exact h
  · exact State.changeMode_authority h _
  · exact h

theorem State.leaveLoading_authority {s : State} (h : s.authorityOk = true) : s.leaveLoading.authorityOk = true := by
  unfold State.leaveLoading
  split
  · exact State.changeMode_authority h _
  · exact h

/-! ### Settings and parameters -/

theorem State.overdueTick_autoMode (s : State) : s.overdueTick.tbp.autoMode = s.tbp.autoMode := by
  unfold State.overdueTick; split <;> rfl

theorem State.setRate_autoMode (s : State) (r : Rate) : (s.setRate r).tbp.autoMode = s.tbp.autoMode := by
  unfold State.setRate; split <;> simp [State.overdueTick_autoMode]

theorem State.enterRef_autoMode (s : State) (r : RefState) : (s.enterRef r).tbp.autoMode = s.tbp.autoMode := by
  unfold State.enterRef; dsimp only; split <;> rfl

theorem State.setRefSelect_autoMode (s : State) (on : Bool) : (s.setRefSelect on).tbp.autoMode = s.tbp.autoMode := by
  unfold State.setRefSelect
  dsimp only
  split
  · rfl
  · split <;> simp [State.overdueTick_autoMode, State.enterRef_autoMode]

theorem State.advanceClock_autoMode (s : State) : s.advanceClock.tbp.autoMode = s.tbp.autoMode := by
  unfold State.advanceClock; split <;> rfl

theorem State.fireTimer_autoMode (s : State) (k : Fin 4) : (s.fireTimer k).tbp.autoMode = s.tbp.autoMode := by
  unfold State.fireTimer; dsimp only; split <;> rfl

theorem State.setArbiter_authority {s : State} (h : s.authorityOk = true) (v : Settings) :
    (s.setArbiter v).authorityOk = true := by
  unfold State.setArbiter
  dsimp only
  split
  · next hsame =>
    obtain ⟨hc, hh, ha, ht⟩ := hsame
    exact State.authorityOk_of_same h (by simp [SameGrant, hc, hh, ha, ht]) (.of_eq rfl rfl rfl rfl)
  · exact State.regrant_authorityOk _

/-- The first owners of the settings: the ports take their enables (R80, R164). -/
def State.portsTaken (s : State) (v : Settings) : State :=
  (((s.setPortEnable 0 v.portEnable.p0).setPortEnable 1 v.portEnable.p1).setPortEnable 2 v.portEnable.p2).setPortEnable 3
    v.portEnable.p3

/-- The shapers take theirs (R164). -/
def State.shapersTaken (s : State) (v : Settings) : State := { s.portsTaken v with dsh := v.shaping }

/-- The arbiter takes its values (R164). -/
def State.arbiterTaken (s : State) (v : Settings) : State := (s.shapersTaken v).setArbiter v

theorem State.portsTaken_authority {s : State} (h : s.authorityOk = true) (v : Settings) :
    (s.portsTaken v).authorityOk = true := by
  unfold State.portsTaken State.setPortEnable
  exact State.takePort_authority (State.takePort_authority (State.takePort_authority (State.takePort_authority h ..) ..) ..) ..

theorem State.arbiterTaken_authority {s : State} (h : s.authorityOk = true) (v : Settings) :
    (s.arbiterTaken v).authorityOk = true := by
  have hports := State.portsTaken_authority h v
  refine State.setArbiter_authority ?_ v
  unfold State.shapersTaken
  generalize s.portsTaken v = u at hports
  exact State.authorityOk_congr hports rfl rfl rfl rfl rfl

theorem State.takeSettings_authority {s : State} (h : s.authorityOk = true) (v : Settings) :
    (s.takeSettings v).authorityOk = true := by
  have htaken := State.arbiterTaken_authority h v
  unfold State.takeSettings
  dsimp only
  rw [← State.portsTaken, ← State.shapersTaken, ← State.arbiterTaken]
  generalize s.arbiterTaken v = u at htaken
  exact State.authorityOk_congr htaken (by simp) (by simp) (by simp) (by simp)
    (by simp [State.setRefSelect_autoMode, State.setRate_autoMode])

theorem State.takeDefaults_authority {s : State} (h : s.authorityOk = true) : s.takeDefaults.authorityOk = true :=
  State.authorityOk_congr (State.takeSettings_authority h Settings.defaults) (by simp [State.takeDefaults])
    (by simp [State.takeDefaults]) (by simp [State.takeDefaults]) (by simp [State.takeDefaults])
    (by simp [State.takeDefaults])

theorem State.takeImage_authority {s : State} (h : s.authorityOk = true) (image : List Word16) :
    (s.takeImage image).authorityOk = true := by
  unfold State.takeImage
  split
  · exact State.authorityOk_congr (State.takeSettings_authority h (settingsOf image)) rfl rfl rfl rfl rfl
  · exact State.takeDefaults_authority h

theorem State.writeParam_authority {s : State} (h : s.authorityOk = true) (p : Param) (v : Nat) :
    (s.writeParam p v).1.authorityOk = true := by
  cases p with
  | accel | decel | autoConstant => exact State.authorityOk_congr h rfl rfl rfl rfl rfl
  | holdOver => exact State.authorityOk_of_same h rfl (.of_eq rfl rfl rfl rfl)
  | portEnable n => exact State.takePort_authority h n _
  | refSelect =>
    simp only [State.writeParam]
    exact State.authorityOk_congr h (by simp) (by simp) (by simp) (by simp) (s.setRefSelect_autoMode _)
  | frameRate =>
    simp only [State.writeParam]
    split
    · exact State.authorityOk_congr h (by simp) (by simp) (by simp) (by simp) (s.setRate_autoMode _)
    · exact h
  | centre n | deadband n | reverse n =>
    simp only [State.writeParam, State.tune]
    split
    · exact h
    · exact State.authorityOk_congr h rfl rfl rfl rfl rfl
  | paceMin =>
    simp only [State.writeParam, State.writePaceMin]
    split <;> exact State.authorityOk_congr h rfl rfl rfl rfl rfl
  | paceMax => exact State.authorityOk_congr h rfl rfl rfl rfl rfl
  | outFraming o =>
    simp only [State.writeParam, State.writeOutput]
    split
    · exact State.authorityOk_congr h (by simp) (by simp) (by simp) (by simp) (by simp)
    · exact h
  | source | threshold | lockEntry => exact h
  | _ =>
    exact State.authorityOk_congr h (by simp [State.writeParam, State.writeGeometry, State.writeOutput])
      (by simp [State.writeParam, State.writeGeometry, State.writeOutput])
      (by simp [State.writeParam, State.writeGeometry, State.writeOutput])
      (by simp [State.writeParam, State.writeGeometry, State.writeOutput])
      (by simp [State.writeParam, State.writeGeometry, State.writeOutput])

theorem doParm_authority {s : State} (h : s.authorityOk = true) (n : Nat) (i : Option Nat) (v : Nat) :
    (doParm n i v s).1.authorityOk = true := by
  unfold doParm
  split
  · exact State.writeParam_authority h ..
  · exact h

theorem State.runPlayer_authority {s : State} (h : s.authorityOk = true) (l : Link) (loop : Option Bool) :
    (s.runPlayer l loop).1.authorityOk = true := by
  unfold State.runPlayer
  split
  · split
    · exact h
    · exact State.startPlayer_authority h _
  · exact State.haltPlayer_authority h

/-! ### Every step (R55, R56, R59) -/

theorem serve_authority {s : State} (h : s.authorityOk = true) (l : Link) (tag : Byte) (r : Request)
    (hb : apart [.msc, .aua, .ports, .sce, .tbp] (ownerBlocks r) = false) : (serve l tag r s).1.authorityOk = true := by
  cases r with
  | clrs =>
    exact State.takeClear_authority (s := { s with scs := Store.empty, ede := s.ede.clearShow })
      (State.authorityOk_congr h rfl rfl rfl rfl rfl)
  | mspd v => exact doMspd_authority h v
  | frze | thaw | rels =>
    refine State.authorityOk_of_speeds h (by simp [serve, answered, doFrze, doThaw, doRels, State.changeScroll])
      (by simp [serve, answered, doFrze, doThaw, doRels, State.changeScroll])
      (fun n => by simp [serve, answered, doFrze, doThaw, doRels, State.changeScroll, State.port]) ?_
      (by simp [serve, answered, doFrze, doThaw, doRels, State.changeScroll])
    simp only [serve, answered, doFrze, doThaw, doRels, State.changeScroll, State.publishSince_frame,
      ScrollEngine.toggleFreeze, ScrollEngine.thaw, ScrollEngine.release]
    split <;> exact ⟨rfl, rfl, rfl⟩
  | jump k p =>
    simp only [serve, answered, doJump]
    (repeat' split)
    · exact h
    · exact State.authorityOk_congr h rfl rfl rfl rfl rfl
    · exact h
  | lock n => exact doLock_authority h n
  | free => exact State.regrant_authorityOk _
  | srcs n on p => exact doSrcs_authority h n on p
  | thrs v => exact State.regrant_authorityOk _
  | parm n i v => exact doParm_authority h n i v
  | amod m c => exact doAmod_authority h m c
  | clkc a v =>
    simp only [serve, answered, doClkc]
    split <;> exact State.authorityOk_congr h rfl rfl rfl rfl rfl
  | cuea k c =>
    simp only [serve, answered, doCuea]
    split <;> exact State.authorityOk_congr h rfl rfl rfl rfl rfl
  | cued k =>
    simp only [serve, answered, doCued]
    split <;> exact State.authorityOk_congr h rfl rfl rfl rfl rfl
  | ecmt => exact State.authorityOk_of_apply h (doEcmt_applyTook l tag s).speeds (doEcmt_sameBut l tag s)
  | qfrc el et => exact State.authorityOk_of_apply h (doQfrc_applyTook l el et s).speeds (doQfrc_sameBut l el et s)
  | mode m => exact doMode_authority h l m
  | save => simp only [serve, answered, doSave]; (repeat' split) <;> exact State.authorityOk_congr h rfl rfl rfl rfl rfl
  | load => simp only [serve, answered, doLoad]; (repeat' split) <;> exact State.authorityOk_congr h rfl rfl rfl rfl rfl
  | dgld f es n =>
    simp only [serve, answered, doDgld]
    (repeat' split) <;> exact State.authorityOk_congr h rfl rfl rfl rfl rfl
  | dgrn a loop =>
    simp only [serve, answered, doDgrn]
    (repeat' split)
    · exact h
    · exact State.runPlayer_authority h ..
    · exact h
    · exact State.runPlayer_authority h ..
    · exact h
  | _ => cases hb

theorem State.playerTick_authority {s : State} (h : s.authorityOk = true) : s.playerTick.authorityOk = true := by
  unfold State.playerTick
  split
  · exact State.stopPlayer_authority h
  · next c _ =>
    exact State.authorityOk_congr (State.takePort_authority h (s.msc.player.entryAt c).port _) rfl rfl rfl rfl rfl

theorem exec_authority {c : Instr} {s : State} (h : s.authorityOk = true)
    (hb : apart [.msc, .aua, .ports, .sce, .tbp] (eventBlocks c) = false) :
    Ends (fun u => u.authorityOk = true) (exec c s) := by
  cases c with
  | resetLine n => exact ends_finish rfl
  | resetRelease w =>
    dsimp only [exec, execResetRelease]
    split <;> exact ends_finish (State.authorityOk_congr h rfl rfl rfl rfl rfl)
  | loadCompletion w image =>
    dsimp only [exec, execLoadCompletion]
    split
    · have hread : ({ s.reach w with mem := memoryAtLoad s.mem image } : State).authorityOk = true := h
      exact ends_finish (State.leaveLoading_authority (State.takeImage_authority hread _))
    · exact ends_finish h
  | settingsLoadTimeout w =>
    dsimp only [exec, execSettingsLoadTimeout]
    have hreach : (s.reach w).authorityOk = true := h
    split
    · exact ends_finish (State.leaveLoading_authority (State.takeDefaults_authority hreach))
    · exact ends_finish hreach
  | saveCompletion back =>
    dsimp only [exec, execSaveCompletion]
    (repeat' split) <;> exact ends_finish (State.authorityOk_congr h rfl rfl rfl rfl rfl)
  | saveTimeout n =>
    dsimp only [exec, execSaveTimeout]
    split <;> exact ends_finish (State.authorityOk_congr h rfl rfl rfl rfl rfl)
  | referenceEdge w =>
    dsimp only [exec, execReferenceEdge]
    (repeat' split)
    · exact ends_finish h
    · exact ends_finish h
    · exact ends_finish (State.authorityOk_congr h (by simp) (by simp) (by simp) (by simp)
        (by simp [State.enterRef_autoMode]))
    · refine ends_finish (State.authorityOk_congr h (by simp) (by simp) (by simp) (by simp) ?_)
      unfold State.lockedEdge
      split <;> rfl
  | internalTick =>
    dsimp only [exec, execInternalTick]
    split <;> exact ends_finish (State.authorityOk_congr h rfl rfl rfl rfl rfl)
  | referenceLoss =>
    dsimp only [exec, execReferenceLoss]
    split
    · exact ends_finish h
    · exact ends_finish (State.authorityOk_congr h (by simp) (by simp) (by simp) (by simp)
        (by simp [State.enterRef_autoMode]))
  | scrollStep =>
    exact ends_finish (State.scrollStep_authority (s := s.scrollTickTaken) h)
  | arbiterTick =>
    dsimp only [exec, execArbiterTick]
    split
    · next ho => exact ends_finish (State.holdOverTick_authority (s := s.arbiterTickTaken) h ho)
    · exact ends_finish h
  | holdOverExpiry =>
    dsimp only [exec, execHoldOverExpiry]
    split
    · next ho => exact ends_finish (State.holdOverTick_authority (s := s.arbiterTickTaken) h ho.1)
    · exact ends_finish h
  | portTick n => exact ends_finish (State.takePort_authority (s := s.portTickTaken n) h n _)
  | portSilenceExpiry n =>
    dsimp only [exec, execPortSilenceExpiry]
    split
    · exact ends_finish (State.takePort_authority (s := s.portTickTaken n) h n _)
    · exact ends_finish h
  | handWord n w =>
    dsimp only [exec, execHandWord]
    (repeat' split)
    · exact ends_finish h
    · exact ends_finish (State.takePort_authority h ..)
    · exact ends_finish (State.takePort_authority h ..)
  | showTimeTick =>
    refine ends_finish (State.authorityOk_congr h (by simp) (by simp) (by simp) (by simp) ?_)
    simp [State.fireTimers, State.fireTimer_autoMode, State.advanceClock_autoMode]
  | cueTimer k =>
    exact ends_finish (State.authorityOk_congr h (by simp) (by simp) (by simp) (by simp) (s.fireTimer_autoMode k))
  | playerTick =>
    dsimp only [exec, execPlayerTick]
    split
    · exact ends_finish (State.playerTick_authority (s := s.playerTickTaken) h)
    · exact ends_finish h
  | copyCompletion l =>
    dsimp only [exec, execCopyCompletion]
    (repeat' split)
    · exact ends_finish (State.authorityOk_of_apply h (State.copyDone_applyTook ..).speeds (State.copyDone_sameBut _ _ _ _))
    · exact ends_finish (State.authorityOk_congr h (by simp) (by simp) (by simp) (by simp) (by simp))
    · exact ends_finish h
  | queuePass =>
    exact ends_finish (State.authorityOk_of_apply (s := s.passTaken) h s.passTaken.pass_applyTook.speeds
      (State.passFrom_sameBut _ _ _))
  | _ => cases hb

/-- Settles O9. -/
theorem stepKeepsAuthority : Obligations.StepKeepsAuthority :=
  step_keeps dependsOn_authorityOk (by decide) (fun _ _ h => h) (fun l tag r _ _ hb h => serve_authority h l tag r hb)
    (fun _ _ _ hb h => exec_authority h hb)

end Sys2Proof.Machine

/-! PROOFS. What the events of the other blocks do to the link interfaces: they raise notices, and nothing else (R176). -/

namespace Sys2Proof.Machine

/-- One raise on the console table, or on the rundown link's (R133, R176). -/
inductive RaiseStep : LinkIface × LinkIface → LinkIface × LinkIface → Prop where
  | console (c r : LinkIface) (k : NoticeKind) (d : NoticeDetail) :
      RaiseStep (c, r) ({ c with notices := raiseIn c.notices k d }, r)
  | rundown (c r : LinkIface) (k : NoticeKind) (d : NoticeDetail) :
      RaiseStep (c, r) (c, { r with notices := raiseIn r.notices k d })

/-- Raises are all that happened to the links. -/
def Raised (s t : State) : Prop := Relation.ReflTransGen RaiseStep (s.cli, s.rli) (t.cli, t.rli)

theorem Raised.of_same {s t : State} (hc : t.cli = s.cli) (hr : t.rli = s.rli) : Raised s t := by
  rw [Raised, hc, hr]

theorem Raised.refl (s : State) : Raised s s := .of_same rfl rfl

theorem Raised.trans {s t u : State} (h : Raised s t) (k : Raised t u) : Raised s u := Relation.ReflTransGen.trans h k

/-- Raises from a state whose links are those of another. -/
theorem Raised.after {s u t : State} (h : Raised u t) (hc : u.cli = s.cli) (hr : u.rli = s.rli) : Raised s t :=
  (Raised.of_same hc hr).trans h

/-- Raises up to a state whose links another keeps. -/
theorem Raised.ends_as {s t u : State} (h : Raised s t) (hc : u.cli = t.cli) (hr : u.rli = t.rli) : Raised s u :=
  h.trans (.of_same hc hr)

/-- A condition on the links that a raise keeps. -/
theorem Raised.keeps {P : LinkIface × LinkIface → Prop} (hP : ∀ a b, RaiseStep a b → P a → P b) {s t : State}
    (h : Raised s t) (hs : P (s.cli, s.rli)) : P (t.cli, t.rli) := by
  unfold Raised at h
  generalize (s.cli, s.rli) = a at h hs
  generalize (t.cli, t.rli) = b at h
  induction h with
  | refl => exact hs
  | tail _ hstep ih => exact hP _ _ hstep ih

theorem State.raise_raised (s : State) (k : NoticeKind) (d : NoticeDetail) : Raised s (s.raise k d) :=
  .single (.console s.cli s.rli k d)

theorem State.raiseCommit_raised (s : State) (k : NoticeKind) (l : Link) (tag : Byte) (c : Option Cause) :
    Raised s (s.raiseCommit k l tag c) := by
  cases l with
  | console => exact s.raise_raised k _
  | rundown => exact (s.raise_raised k (.commit .rundown tag c)).trans (.single (.rundown _ _ _ _))

/-! ### Engine and arbiter -/

theorem State.trigger_raised (s : State) : Raised s s.trigger := .of_same (by simp) (by simp)

theorem State.publishSince_raised (s : State) (e : ScrollEngine) : Raised s (s.publishSince e) :=
  .of_same (by simp) (by simp)

theorem State.followStory_raised (s : State) : Raised s s.followStory := by
  unfold State.followStory
  split
  · exact .of_same rfl rfl
  · split
    · exact .refl s
    · exact (State.raise_raised _ _ _).after rfl rfl

theorem State.moveAnchor_raised (s : State) (a : Option Nat) (f : Nat) : Raised s (s.moveAnchor a f) := by
  unfold State.moveAnchor
  dsimp only
  split
  · exact .of_same rfl rfl
  · exact ((State.followStory_raised _).ends_as rfl rfl).after rfl rfl

theorem State.takeGrant_raised (s : State) (g : Grant) : Raised s (s.takeGrant g) := by
  unfold State.takeGrant
  dsimp only
  split
  · exact .of_same rfl rfl
  · exact ((State.raise_raised _ _ _).trans (State.trigger_raised _)).after rfl rfl

theorem State.regrant_raised (s : State) : Raised s s.regrant := s.takeGrant_raised _

theorem State.holdOverTick_raised (s : State) : Raised s s.holdOverTick := by
  unfold State.holdOverTick
  split
  · exact s.takeGrant_raised _
  · exact .of_same rfl rfl

theorem State.changePort_raised (s : State) (n : Fin 4) (p : HandPort) : Raised s (s.changePort n p) := by
  unfold State.changePort
  split
  · exact .of_same rfl rfl
  · exact (State.regrant_raised _).after rfl rfl

theorem State.takePort_raised (s : State) (n : Fin 4) (p : HandPort) : Raised s (s.takePort n p) := by
  unfold State.takePort
  dsimp only
  refine Raised.trans ?_ (State.changePort_raised _ n p)
  split
  · exact .refl s
  · exact s.raise_raised _ _

theorem State.clearLatches_raised (s : State) : Raised s s.clearLatches := by
  rcases s.clearLatches_cases with ⟨hc, -⟩ | ⟨hc, -⟩ <;> rw [hc]
  · exact .of_same rfl rfl
  · exact (State.regrant_raised _).after rfl rfl

theorem State.takeLanding_raised (s : State) (l : Landing) : Raised s (s.takeLanding l) := by
  unfold State.takeLanding
  dsimp only
  refine (s.moveAnchor_raised (some l.lid) l.fraction).trans ?_
  split
  · exact (State.raise_raised _ _ _).after rfl rfl
  · exact .of_same rfl rfl

theorem State.reportCues_raised (s : State) (p q : Nat) : Raised s (s.reportCues p q) := by
  unfold State.reportCues
  split
  · exact s.raise_raised _ _
  · exact .refl s

theorem State.integrate_raised (s : State) (p : Nat) (v : Int) : Raised s (s.integrate p v) := by
  unfold State.integrate
  split
  · split
    · exact (s.takeLanding_raised _).trans (State.reportCues_raised _ _ _)
    · exact .of_same rfl rfl
  · split
    · split
      · exact s.takeLanding_raised _
      · exact .of_same rfl rfl
    · exact .of_same rfl rfl

theorem State.applyJump_raised (s : State) (t : JumpTarget) : Raised s (s.applyJump t) := by
  unfold State.applyJump
  dsimp only
  split
  · exact (State.raise_raised _ _ _).after rfl rfl
  · exact ((State.moveAnchor_raised _ _ _).ends_as rfl rfl).after rfl rfl

theorem State.stepMove_raised (s : State) : Raised s s.stepMove := by
  unfold State.stepMove
  split
  · exact s.applyJump_raised _
  · split
    · exact .of_same rfl rfl
    · split
      · exact .of_same rfl rfl
      · exact s.integrate_raised _ _

theorem State.scrollStep_raised (s : State) : Raised s s.scrollStep :=
  ((State.stepMove_raised s.takeButtons).trans (State.publishSince_raised _ _)).after rfl rfl

/-! ### Edits -/

theorem State.relocate_raised (s : State) (r : ContentReport) : Raised s (s.relocate r) := by
  unfold State.relocate
  split
  · split
    · dsimp only
      split
      · exact (s.moveAnchor_raised _ _).ends_as rfl rfl
      · exact s.moveAnchor_raised _ _
    · exact .refl s
  · exact .refl s

theorem State.firstAnchor_raised (s : State) (r : ContentReport) : Raised s (s.firstAnchor r) := by
  unfold State.firstAnchor
  split
  · exact s.moveAnchor_raised _ _
  · exact .refl s

theorem State.takeApply_raised (s : State) (r : ContentReport) : Raised s (s.takeApply r) :=
  (s.relocate_raised r).trans ((((s.relocate r).endTest.firstAnchor_raised r).trans
    ((State.trigger_raised _).trans (State.publishSince_raised _ _))).after (by simp) (by simp))

theorem State.takeClear_raised (s : State) : Raised s s.takeClear := by
  unfold State.takeClear State.consoleStopped
  dsimp only
  split
  · exact .of_same (by simp) (by simp)
  · exact (State.regrant_raised _).after (by simp) (by simp)

theorem State.applyEntry_raised (s : State) (e : Entry) : Raised s (s.applyEntry e) :=
  ((State.raiseCommit_raised _ _ _ _ _).trans
    ((State.takeApply_raised _ _).ends_as rfl rfl)).after rfl rfl

theorem State.dropEntry_raised (s : State) (e : Entry) (c : Cause) : Raised s (s.dropEntry e c) :=
  ((State.raiseCommit_raised _ _ _ _ _).ends_as rfl rfl).after rfl rfl

theorem State.passFrom_raised (s : State) (earlier rest : List Entry) : Raised s (s.passFrom earlier rest) := by
  induction rest generalizing s earlier with
  | nil => exact .of_same rfl rfl
  | cons e rest ih =>
    unfold State.passFrom
    split
    · exact ih ..
    · split
      · exact ih ..
      · split
        · exact (State.dropEntry_raised _ _ _).after rfl rfl
        · split
          · refine Raised.trans ?_ (ih ..)
            unfold State.noteDeferred
            split
            · exact .refl s
            · exact s.raiseCommit_raised _ _ _ _
          · exact (State.applyEntry_raised _ _).after rfl rfl

theorem State.pass_raised (s : State) : Raised s s.pass := s.passFrom_raised _ _

theorem State.copyDone_raised (s : State) (l : Link) (page : Page) (e : Entry) : Raised s (s.copyDone l page e) := by
  have hcopied : Raised s (s.pageCopied l page e) :=
    .of_same (s.pageCopied_sameBut l page e .cli (by decide)) (s.pageCopied_sameBut l page e .rli (by decide))
  rw [State.copyDone_eq]
  split
  · exact hcopied.trans ((State.dropEntry_raised _ _ _).after rfl rfl)
  · exact hcopied.trans ((State.pass_raised _).after rfl rfl)

theorem State.startCopy_raised (s : State) (l : Link) (tag : Byte) (e : EditParams) (n : Nat) (page : Page) (st : Store)
    (lids : List Nat) : Raised s (s.startCopy l tag e n page st lids) := by
  have haccept : Raised s (s.acceptCommit l tag e n page st lids) :=
    .of_same (s.acceptCommit_sameBut l tag e n page st lids .cli (by decide))
      (s.acceptCommit_sameBut l tag e n page st lids .rli (by decide))
  unfold State.startCopy
  dsimp only
  split
  · exact haccept.trans (State.copyDone_raised ..)
  · exact haccept

theorem doEcmt_raised (l : Link) (tag : Byte) (s : State) : Raised s (doEcmt l tag s).1 := by
  unfold doEcmt
  split
  · split
    · exact .of_same rfl rfl
    · split
      · exact .of_same rfl rfl
      · exact s.startCopy_raised ..
  · exact .of_same rfl rfl

theorem doQcan_raised (l : Link) (el et : Nat) (s : State) : Raised s (doQcan l el et s).1 := by
  unfold doQcan
  split
  · exact .refl s
  · split
    · exact .refl s
    · split
      · exact .of_same rfl rfl
      · unfold State.cancelEntry
        split
        · exact .of_same rfl rfl
        · exact (State.dropEntry_raised _ _ _).after rfl rfl

theorem State.forceEntry_raised (s : State) (l : Link) (e : Entry) : Raised s (s.forceEntry l e).1 := by
  unfold State.forceEntry
  dsimp only
  split
  · exact .of_same rfl rfl
  · split
    · exact ((State.dropEntry_raised _ _ _).ends_as rfl rfl).after rfl rfl
    · exact (State.applyEntry_raised _ _).after rfl rfl

theorem doQfrc_raised (l : Link) (el et : Nat) (s : State) : Raised s (doQfrc l el et s).1 := by
  unfold doQfrc
  split
  · exact .refl s
  · split
    · exact .of_same rfl rfl
    · split
      · exact s.forceEntry_raised ..
      · exact .of_same rfl rfl

/-! ### Timebase, settings, modes, player, outputs -/

theorem State.enterRef_raised (s : State) (r : RefState) : Raised s (s.enterRef r) := by
  unfold State.enterRef
  dsimp only
  split
  · exact .of_same rfl rfl
  · exact (State.raise_raised _ _ _).after rfl rfl

theorem State.setRefSelect_raised (s : State) (on : Bool) : Raised s (s.setRefSelect on) := by
  unfold State.setRefSelect
  dsimp only
  split
  · exact .refl s
  · have henter (r : RefState) : Raised s (State.enterRef { s with tbp := { s.tbp with refSelect := on } } r) :=
      (State.enterRef_raised _ r).after rfl rfl
    split
    · exact henter .lost
    · exact (henter .free).ends_as (by simp) (by simp)

theorem State.fireTimer_raised (s : State) (k : Fin 4) : Raised s (s.fireTimer k) := by
  unfold State.fireTimer
  dsimp only
  split
  · exact (State.raise_raised _ _ _).after rfl rfl
  · exact .refl s

theorem State.fireTimers_raised (s : State) : Raised s s.fireTimers :=
  (((s.fireTimer_raised 0).trans (State.fireTimer_raised _ 1)).trans (State.fireTimer_raised _ 2)).trans
    (State.fireTimer_raised _ 3)

theorem State.backTime_raised (s : State) : Raised s s.backTime := by
  unfold State.backTime
  split
  · split
    · exact (State.raise_raised _ _ _).after rfl rfl
    · exact .refl s
  · exact .refl s

theorem State.setArbiter_raised (s : State) (v : Settings) : Raised s (s.setArbiter v) := by
  unfold State.setArbiter
  dsimp only
  split
  · exact .of_same rfl rfl
  · exact (State.regrant_raised _).after rfl rfl

theorem State.portsTaken_raised (s : State) (v : Settings) : Raised s (s.portsTaken v) := by
  unfold State.portsTaken State.setPortEnable
  exact (((s.takePort_raised _ _).trans (State.takePort_raised _ _ _)).trans (State.takePort_raised _ _ _)).trans
    (State.takePort_raised _ _ _)

theorem State.arbiterTaken_raised (s : State) (v : Settings) : Raised s (s.arbiterTaken v) := by
  refine (s.portsTaken_raised v).trans ?_
  unfold State.arbiterTaken State.shapersTaken
  generalize s.portsTaken v = u
  exact (State.setArbiter_raised _ v).after rfl rfl

theorem State.takeSettings_raised (s : State) (v : Settings) : Raised s (s.takeSettings v) := by
  refine (s.arbiterTaken_raised v).trans ?_
  unfold State.takeSettings
  dsimp only
  rw [← State.portsTaken, ← State.shapersTaken, ← State.arbiterTaken]
  generalize s.arbiterTaken v = u
  exact (State.setRefSelect_raised _ _).after (by simp) (by simp)

theorem State.takeDefaults_raised (s : State) : Raised s s.takeDefaults := by
  refine (s.takeSettings_raised Settings.defaults).trans ?_
  unfold State.takeDefaults
  generalize s.takeSettings Settings.defaults = u
  exact (State.raise_raised _ _ _).after rfl rfl

theorem State.takeImage_raised (s : State) (image : List Word16) : Raised s (s.takeImage image) := by
  unfold State.takeImage
  split
  · exact (s.takeSettings_raised (settingsOf image)).ends_as rfl rfl
  · exact s.takeDefaults_raised

theorem State.stopPlayer_raised (s : State) : Raised s s.stopPlayer :=
  (State.clearLatches_raised _).after rfl rfl

theorem State.modePorts_raised (s : State) (a b : Mode) : Raised s (s.modePorts a b) := by
  unfold State.modePorts
  split
  · exact s.stopPlayer_raised
  · exact .refl s

theorem State.modeGrant_raised (s : State) (a b : Mode) : Raised s (s.modeGrant a b) := by
  unfold State.modeGrant
  split
  · exact .refl s
  · exact s.regrant_raised

theorem State.changeMode_raised (s : State) (m : Mode) : Raised s (s.changeMode m) := by
  unfold State.changeMode
  dsimp only
  have hports := (State.modePorts_raised { s with msc := { s.msc with mode := m } } s.msc.mode m).after (s := s) rfl rfl
  generalize State.modePorts { s with msc := { s.msc with mode := m } } s.msc.mode m = u at hports
  refine hports.trans ?_
  have hgrant := ((u.modeRest m).modeGrant_raised s.msc.mode m).after (s := u) (by simp) (by simp)
  generalize (u.modeRest m).modeGrant s.msc.mode m = w at hgrant
  exact hgrant.ends_as (by simp) (by simp)

theorem State.leaveLoading_raised (s : State) : Raised s s.leaveLoading := by
  unfold State.leaveLoading
  split
  · exact s.changeMode_raised _
  · exact .refl s

theorem doMode_raised (l : Link) (m : Nat) (s : State) : Raised s (doMode l m s).1 := by
  unfold doMode
  (repeat' split)
  · exact .refl s
  · exact .refl s
  · exact .refl s
  · exact s.changeMode_raised _
  · exact .of_same rfl rfl

theorem State.haltPlayer_raised (s : State) : Raised s s.haltPlayer := by
  unfold State.haltPlayer
  split
  · exact s.stopPlayer_raised
  · exact .refl s

theorem State.runPlayer_raised (s : State) (l : Link) (loop : Option Bool) : Raised s (s.runPlayer l loop).1 := by
  unfold State.runPlayer
  split
  · split
    · exact .of_same rfl rfl
    · exact s.haltPlayer_raised.ends_as rfl rfl
  · exact s.haltPlayer_raised

theorem State.playerTick_raised (s : State) : Raised s s.playerTick := by
  unfold State.playerTick
  split
  · exact s.stopPlayer_raised
  · exact (s.takePort_raised _ _).ends_as rfl rfl

theorem State.openSlot_raised (s : State) (o : OutputId) : Raised s (s.openSlot o) := by
  unfold State.openSlot
  dsimp only
  split
  · exact .of_same (by simp) (by simp)
  · split
    · exact .of_same (by simp) (by simp)
    · split
      · exact (State.raise_raised _ _ _).after (by simp) (by simp)
      · exact .of_same (by simp) (by simp)

/-! ### Every owner and every event -/

theorem State.writeParam_raised (s : State) (p : Param) (v : Nat) : Raised s (s.writeParam p v).1 := by
  cases p with
  | portEnable n => exact s.takePort_raised n _
  | refSelect => exact s.setRefSelect_raised _
  | centre n | deadband n | reverse n =>
    simp only [State.writeParam, State.tune]; split <;> exact .of_same rfl rfl
  | frameRate | outFraming o =>
    simp only [State.writeParam, State.writeOutput]; split <;> exact .of_same (by simp) (by simp)
  | paceMin => simp only [State.writeParam, State.writePaceMin]; split <;> exact .of_same rfl rfl
  | accel | decel | holdOver | autoConstant | paceMax | source | threshold | lockEntry => exact .of_same rfl rfl
  | _ =>
    simp only [State.writeParam, State.writeGeometry, State.writeOutput]
    exact .of_same (by simp) (by simp)

/-- The requests whose owner is the link interface itself: the reads and NTEN. -/
def ownLink : Request → Bool
  | .rdln .. | .rdrn .. | .nten .. => true
  | _ => false

/-- Every other owner raises notices at most. -/
theorem serve_raised {r : Request} (hr : ownLink r = false) (l : Link) (tag : Byte) (s : State) :
    Raised s (serve l tag r s).1 := by
  by_cases hb : .cli ∉ ownerBlocks r ∧ .rli ∉ ownerBlocks r
  · exact .of_same (serve_sameBut l tag r s .cli hb.1) (serve_sameBut l tag r s .rli hb.2)
  cases r with
  | rdln | rdrn | nten => cases hr
  | clrs => exact (State.takeClear_raised _).after rfl rfl
  | mspd v =>
    simp only [serve, answered, doMspd, State.setManualSpeed]
    split
    · exact .of_same rfl rfl
    · exact (State.regrant_raised _).after rfl rfl
  | lock n =>
    simp only [serve, answered, doLock]
    split
    · exact .refl s
    · exact (State.regrant_raised _).after rfl rfl
  | free => exact (State.regrant_raised _).after rfl rfl
  | srcs n on p =>
    simp only [serve, answered, doSrcs]
    split
    · exact .refl s
    · exact (State.regrant_raised _).after rfl rfl
  | thrs v => exact (State.regrant_raised _).after rfl rfl
  | parm n i v =>
    simp only [serve, answered, doParm]
    split
    · exact s.writeParam_raised _ _
    · exact .refl s
  | amod m c =>
    have hc : Raised s (s.setConstant? c) := .of_same (by simp) (by simp)
    simp only [serve, answered, doAmod, State.setAutoMode]
    split
    · exact .refl s
    · split
      · exact hc.ends_as rfl rfl
      · exact hc.trans ((State.regrant_raised _).after rfl rfl)
  | ecmt => exact doEcmt_raised ..
  | qcan el et => exact doQcan_raised ..
  | qfrc el et => exact doQfrc_raised ..
  | mode m => exact doMode_raised ..
  | dgrn a loop =>
    simp only [serve, answered, doDgrn]
    (repeat' split)
    · exact .refl s
    · exact s.runPlayer_raised ..
    · exact .refl s
    · exact s.runPlayer_raised ..
    · exact .refl s
  | _ => simp [ownerBlocks] at hb

end Sys2Proof.Machine

/-! PROOFS. The link interfaces across a step (chapter 10): the one induction behind the conditions on the links, and the
queues within their places (R127, R172). -/

namespace Sys2Proof.Machine

/-- The events that are the links' own work. -/
def linkWork : Instr → Bool
  | .linkFrameReceived .. | .interByteTimeout _ | .linkSendStart _ | .linkSendCompletion _ | .rdlnCompletion _
  | .rdrnCompletion _ => true
  | _ => false

/-- Every event that is no link's own work, and brings no request, raises notices at most; but for the reset line. -/
theorem exec_raised {c : Instr} (hc : carriesRequest c = false) (hl : linkWork c = false) (hr : ∀ n, c ≠ .resetLine n)
    (s : State) : Ends (Raised s) (exec c s) := by
  cases c with
  | resetLine n => exact absurd rfl (hr n)
  | resetRelease w => dsimp only [exec, execResetRelease]; split <;> exact ends_finish (.of_same rfl rfl)
  | loadCompletion w image =>
    dsimp only [exec, execLoadCompletion]
    split
    · have htake := (State.takeImage_raised { s.reach w with mem := memoryAtLoad s.mem image }
        (readImage (memoryAtLoad s.mem image))).after (s := s) rfl rfl
      exact ends_finish (htake.trans (State.leaveLoading_raised _))
    · exact ends_finish (.of_same rfl rfl)
  | settingsLoadTimeout w =>
    dsimp only [exec, execSettingsLoadTimeout]
    split
    · exact ends_finish (((s.reach w).takeDefaults_raised.after rfl rfl).trans (State.leaveLoading_raised _))
    · exact ends_finish (.of_same rfl rfl)
  | saveCompletion back =>
    dsimp only [exec, execSaveCompletion, State.endSave]
    (repeat' split)
    · exact ends_finish ((State.raise_raised _ _ _).after rfl rfl)
    · exact ends_finish ((State.raise_raised _ _ _).after rfl rfl)
    · exact ends_finish (.refl s)
  | saveTimeout n =>
    dsimp only [exec, execSaveTimeout, State.endSave]
    split
    · exact ends_finish ((State.raise_raised _ _ _).after rfl rfl)
    · exact ends_finish (.refl s)
  | referenceEdge w =>
    dsimp only [exec, execReferenceEdge]
    (repeat' split)
    · exact ends_finish (.of_same rfl rfl)
    · exact ends_finish (.of_same rfl rfl)
    · exact ends_finish ((State.enterRef_raised _ _).after rfl rfl)
    · exact ends_finish (.of_same (by simp) (by simp))
  | internalTick => dsimp only [exec, execInternalTick]; split <;> exact ends_finish (.of_same rfl rfl)
  | referenceLoss =>
    dsimp only [exec, execReferenceLoss]
    split
    · exact ends_finish (.refl s)
    · exact ends_finish ((State.enterRef_raised _ _).after rfl rfl)
  | scrollStep => exact ends_finish ((State.scrollStep_raised _).after rfl rfl)
  | arbiterTick =>
    dsimp only [exec, execArbiterTick]
    split
    · exact ends_finish ((State.holdOverTick_raised _).after rfl rfl)
    · exact ends_finish (.of_same rfl rfl)
  | holdOverExpiry =>
    dsimp only [exec, execHoldOverExpiry]
    split
    · exact ends_finish ((State.holdOverTick_raised _).after rfl rfl)
    · exact ends_finish (.refl s)
  | portTick n => exact ends_finish ((State.takePort_raised _ _ _).after rfl rfl)
  | portSilenceExpiry n =>
    dsimp only [exec, execPortSilenceExpiry]
    split
    · exact ends_finish ((State.takePort_raised _ _ _).after rfl rfl)
    · exact ends_finish (.refl s)
  | handWord n w =>
    dsimp only [exec, execHandWord]
    (repeat' split)
    · exact ends_finish (.refl s)
    · exact ends_finish (s.takePort_raised _ _)
    · exact ends_finish (s.takePort_raised _ _)
  | showTimeTick =>
    refine ends_finish (Raised.trans (t := s.showTimeTickTaken.advanceClock) (.of_same (by simp) (by simp)) ?_)
    exact (State.fireTimers_raised _).trans (State.backTime_raised _)
  | cueTimer k => exact ends_finish (s.fireTimer_raised k)
  | playerTick =>
    dsimp only [exec, execPlayerTick]
    split
    · exact ends_finish ((State.playerTick_raised _).after rfl rfl)
    · exact ends_finish (.of_same rfl rfl)
  | copyCompletion l =>
    dsimp only [exec, execCopyCompletion]
    (repeat' split)
    · exact ends_finish (s.copyDone_raised _ _ _)
    · exact ends_finish (.of_same (by simp) (by simp))
    · exact ends_finish (.refl s)
  | queuePass => exact ends_finish ((State.pass_raised _).after rfl rfl)
  | stagingCompletion =>
    dsimp only [exec, execStagingCompletion]
    split
    · exact ends_finish (.of_same (by simp) (by simp))
    · exact ends_finish (.refl s)
  | outputTick o =>
    dsimp only [exec, execOutputTick]
    (repeat' split)
    · exact ends_finish (.of_same (by simp) (by simp))
    · exact ends_finish ((State.openSlot_raised _ o).after (by simp) (by simp))
    · exact ends_finish (.of_same (by simp) (by simp))
  | frameSyncRequest o =>
    dsimp only [exec, execFrameSyncRequest]
    (repeat' split)
    · exact ends_finish (.of_same (by simp) (by simp))
    · exact ends_finish (s.openSlot_raised o)
    · exact ends_finish (.refl s)
  | packetSendCompletion o => exact ends_finish (.of_same (by simp) (by simp))
  | linkFrameReceived | interByteTimeout | linkSendStart | linkSendCompletion | rdlnCompletion | rdrnCompletion =>
    cases hl
  | _ => cases hc

/-- A condition on a link interface that everything that happens to it keeps. -/
structure KeptByLink (L : LinkIface → Prop) : Prop where
  raise : ∀ l k d, L l → L { l with notices := raiseIn l.notices k d }
  enable : ∀ l (ps : List (Nat × Bool)), L l → L { l with notices := ps.foldl writeEnable l.notices }
  pump : ∀ l, L l → L l.pump
  respond : ∀ l r, L l → l.canExecute = true → L { l with responseQueue := l.responseQueue ++ [r] }
  startRead : ∀ l r, L l → l.canExecute = true → L { l with reading := some r }
  endRead : ∀ l r x, L l → l.reading = some r → L { l with reading := none, responseQueue := l.responseQueue ++ [x] }
  take : ∀ l f rest, L l → l.receiveQueue = f :: rest → L { l with receiveQueue := rest }
  offer : ∀ l f, L l → L (l.offer f)
  receive : ∀ l r, L l → L { l with receiver := r }
  countError : ∀ l, L l → L l.countError
  sent : ∀ l, L l → L { l with line := none }

section
variable {L : Link → LinkIface → Prop}

/-- Both links meet their condition. -/
def LinksMeet (L : Link → LinkIface → Prop) (s : State) : Prop := ∀ l, L l (s.link l)

theorem linksMeet_setLink {s : State} (h : LinksMeet L s) {l : Link} {i : LinkIface} (hi : L l i) :
    LinksMeet L (s.setLink l i) := by
  intro m
  rw [State.setLink_link]
  split
  · next hm => exact hm ▸ hi
  · exact h m

theorem linksMeet_same {s t : State} (h : LinksMeet L s) (hc : t.cli = s.cli) (hr : t.rli = s.rli) : LinksMeet L t := by
  intro m
  cases m
  · exact (congrArg (L .console) hc).mpr (h .console)
  · exact (congrArg (L .rundown) hr).mpr (h .rundown)

theorem linksMeet_raised (hL : ∀ l, KeptByLink (L l)) {s t : State} (h : LinksMeet L s) (hr : Raised s t) :
    LinksMeet L t := by
  have hpair : L .console t.cli ∧ L .rundown t.rli := by
    refine hr.keeps (P := fun x => L .console x.1 ∧ L .rundown x.2) ?_ ⟨h .console, h .rundown⟩
    rintro _ _ (⟨c, r, k, d⟩ | ⟨c, r, k, d⟩) ⟨hc, hr⟩
    · exact ⟨(hL .console).raise c k d hc, hr⟩
    · exact ⟨hc, (hL .rundown).raise r k d hr⟩
  intro m
  cases m
  exacts [hpair.1, hpair.2]

/-- Raises leave what decides whether a link can execute a request. -/
theorem Raised.canExecute {s t : State} (h : Raised s t) (l : Link) :
    (t.link l).canExecute = (s.link l).canExecute := by
  have hpair : t.cli.canExecute = s.cli.canExecute ∧ t.rli.canExecute = s.rli.canExecute := by
    refine h.keeps (P := fun x => x.1.canExecute = s.cli.canExecute ∧ x.2.canExecute = s.rli.canExecute) ?_ ⟨rfl, rfl⟩
    rintro _ _ (⟨c, r, k, d⟩ | ⟨c, r, k, d⟩) ⟨hc, hr⟩ <;> exact ⟨hc, hr⟩
  cases l
  exacts [hpair.1, hpair.2]

/-- A request served: its link meets its condition, and where the request is answered can take the response. -/
theorem serve_links (hL : ∀ l, KeptByLink (L l)) {s : State} (h : LinksMeet L s) {l : Link}
    (hx : (s.link l).canExecute = true) (tag : Byte) (r : Request) :
    LinksMeet L (serve l tag r s).1 ∧
      ((serve l tag r s).2 ≠ none → ((serve l tag r s).1.link l).canExecute = true) := by
  by_cases hr : ownLink r = false
  · have hraised := serve_raised hr l tag s
    exact ⟨linksMeet_raised hL h hraised, fun _ => (hraised.canExecute l).trans hx⟩
  cases r with
  | rdln lid c =>
    simp only [serve, doRdln]
    split
    · refine ⟨linksMeet_same h rfl rfl, fun _ => ?_⟩
      cases l <;> exact hx
    · exact ⟨linksMeet_setLink h ((hL l).startRead _ _ (h l) hx), fun hn => absurd rfl hn⟩
  | rdrn p => exact ⟨linksMeet_setLink h ((hL l).startRead _ _ (h l) hx), fun hn => absurd rfl hn⟩
  | nten ps =>
    simp only [serve, answered, doNten]
    split
    · refine ⟨linksMeet_setLink h ((hL l).enable _ _ (h l)), fun _ => ?_⟩
      rw [State.setLink_link_same]
      exact hx
    · exact ⟨h, fun _ => hx⟩
  | _ => exact absurd rfl hr

theorem State.deliver_links (hL : ∀ l, KeptByLink (L l)) {s : State} (h : LinksMeet L s) {l : Link}
    (hx : (s.link l).canExecute = true) (tag : Byte) (m : Mnem) (r : Option Request) :
    LinksMeet L (s.deliver l tag m r) := by
  have hjudge : LinksMeet L (judge l tag m r s).1 ∧
      ((judge l tag m r s).2 ≠ none → ((judge l tag m r s).1.link l).canExecute = true) := by
    unfold judge
    split
    · exact ⟨h, fun _ => hx⟩
    · split
      · exact ⟨h, fun _ => hx⟩
      · split
        · split
          · exact serve_links hL h hx _ _
          · exact ⟨h, fun _ => hx⟩
        · exact ⟨h, fun _ => hx⟩
  unfold State.deliver State.answer State.respond
  split
  · next hst => exact linksMeet_setLink hjudge.1 ((hL l).respond _ _ (hjudge.1 l) (hjudge.2 (by simp [hst])))
  · exact hjudge.1

theorem State.takeRequest_links (hL : ∀ l, KeptByLink (L l)) {s : State} (h : LinksMeet L s) (l : Link) (tag : Byte)
    (r : Request) : LinksMeet L (s.takeRequest l tag r) := by
  unfold State.takeRequest
  split
  · next hf =>
    have hx : (s.link l).canExecute = true := by
      simp only [LinkIface.free, Bool.and_eq_true] at hf
      exact hf.2
    exact State.deliver_links hL h hx _ _ _
  · exact linksMeet_setLink h ((hL l).offer _ _ (h l))

theorem State.executeNext_links (hL : ∀ l, KeptByLink (L l)) {s : State} (h : LinksMeet L s) (l : Link) :
    LinksMeet L (s.executeNext l) := by
  unfold State.executeNext
  split
  · exact h
  · next f rest hq =>
    split
    · next hx =>
      have htaken := linksMeet_setLink h (l := l) ((hL l).take _ _ _ (h l) hq)
      have hxt : ((s.setLink l { s.link l with receiveQueue := rest }).link l).canExecute = true := by
        rw [State.setLink_link_same]; exact hx
      unfold State.executeFrame
      split
      · exact linksMeet_setLink htaken ((hL l).respond _ _ (htaken l) hxt)
      · exact State.deliver_links hL htaken hxt _ _ _
    · exact h

theorem LinkIface.takeByte_keeps {C : LinkIface → Prop} (hC : KeptByLink C) {l : LinkIface} (h : C l) (b : Byte) :
    C (l.takeByte b) := by
  unfold LinkIface.takeByte
  split
  · exact hC.receive _ _ h
  · exact hC.countError _ (hC.receive _ _ h)
  · exact hC.offer _ _ (hC.receive _ _ h)

theorem LinkIface.takeBytes_keeps {C : LinkIface → Prop} (hC : KeptByLink C) {l : LinkIface} (h : C l)
    (bytes : List Byte) : C (bytes.foldl LinkIface.takeByte l) := by
  induction bytes generalizing l with
  | nil => exact h
  | cons b rest ih => exact ih (LinkIface.takeByte_keeps hC h b)

theorem LinkIface.byteTimeout_keeps {C : LinkIface → Prop} (hC : KeptByLink C) {l : LinkIface} (h : C l) :
    C l.byteTimeout := by
  unfold LinkIface.byteTimeout
  split
  · exact h
  · exact hC.countError _ (hC.receive _ _ h)

theorem State.completeRead_links (hL : ∀ l, KeptByLink (L l)) {s : State} (h : LinksMeet L s) (l : Link) (k : ReadKind) :
    LinksMeet L (s.completeRead l k) := by
  unfold State.completeRead
  split
  · next r hr =>
    split
    · have hend := (hL l).endRead _ r { tag := r.tag, mnem := r.kind.mnem.bytes, status := .ok r.data } (h l) hr
      have hset := linksMeet_setLink h hend
      simpa [State.endRead, State.respond] using hset
    · exact h
  · exact h

theorem exec_links (hL : ∀ l, KeptByLink (L l)) (hreset : L .console (LinkIface.reset consoleKinds))
    (hreset' : L .rundown (LinkIface.reset rundownKinds)) {s : State} (h : LinksMeet L s) (c : Instr) :
    Ends (LinksMeet L) (exec c s) := by
  cases hr : c.request? with
  | some x =>
    obtain ⟨w, hw⟩ := exec_takeRequest (l := x.1) (tag := x.2.1) (r := x.2.2) hr s
    rw [hw]
    exact ends_finish (State.takeRequest_links hL (linksMeet_same (t := s.reach w) h rfl rfl) _ _ _)
  | none =>
    cases c with
    | resetLine n =>
      refine ends_finish fun l => ?_
      cases l
      exacts [hreset, hreset']
    | requestExecution l w => exact ends_finish (State.executeNext_links hL (linksMeet_same (t := s.reach w) h rfl rfl) l)
    | linkFrameReceived l bytes => exact ends_finish (linksMeet_setLink h (LinkIface.takeBytes_keeps (hL l) (h l) bytes))
    | interByteTimeout l => exact ends_finish (linksMeet_setLink h (LinkIface.byteTimeout_keeps (hL l) (h l)))
    | linkSendStart l => exact ends_finish (linksMeet_setLink h ((hL l).pump _ (h l)))
    | linkSendCompletion l => exact ends_finish (linksMeet_setLink h ((hL l).sent _ (h l)))
    | rdlnCompletion l => exact ends_finish (State.completeRead_links hL h l _)
    | rdrnCompletion l => exact ends_finish (State.completeRead_links hL h l _)
    | _ => exact (exec_raised (by simp [carriesRequest, hr]) rfl (by simp) s).mono fun u hu => linksMeet_raised hL h hu

/-- A condition on the links that everything that happens to a link keeps, and the reset values meet, is kept by every
step. -/
theorem step_keeps_links (hL : ∀ l, KeptByLink (L l)) (hreset : L .console (LinkIface.reset consoleKinds))
    (hreset' : L .rundown (LinkIface.reset rundownKinds)) {s t : State} (h : LinksMeet L s) (ht : step s = .next t) :
    LinksMeet L t := by
  unfold step at ht
  split at ht
  · cases ht; exact h
  · next c rest _ =>
    obtain ⟨u, rfl, hu⟩ := (exec_links hL hreset hreset' (s := { s with pending := rest }) (linksMeet_same h rfl rfl) c).next ht
    intro l
    rw [State.settle_link]
    exact (hL l).pump _ (hu l)

end

/-! ### The queues of a link (R172) -/

theorem LinkIface.queuesOk_iff (l : LinkIface) : l.queuesOk = true ↔
    l.receiveQueue.length ≤ 4 ∧ l.responseQueue.length + l.reading.isSome.toNat ≤ 8 := by
  simp only [LinkIface.queuesOk, Bool.and_eq_true, decide_eq_true_eq]
  rfl

theorem LinkIface.canExecute_iff (l : LinkIface) :
    l.canExecute = true ↔ l.reading = none ∧ l.responseQueue.length < 8 := by
  simp only [LinkIface.canExecute, Bool.and_eq_true, decide_eq_true_eq, Option.isNone_iff_eq_none]
  rfl

theorem LinkIface.offer_queuesOk {l : LinkIface} (h : l.queuesOk = true) (f : RequestFrame) :
    (l.offer f).queuesOk = true := by
  rw [LinkIface.queuesOk_iff] at h
  obtain ⟨hreceive, hrespond⟩ := h
  rw [LinkIface.queuesOk_iff]
  unfold LinkIface.offer LinkIface.responsePlaces Config.receiveQueueMax Config.responseQueueMax
  split
  · exact ⟨by simp; omega, hrespond⟩
  · split
    · exact ⟨hreceive, by simp; omega⟩
    · exact ⟨hreceive, hrespond⟩

theorem keptByLink_queuesOk : KeptByLink (fun l => l.queuesOk = true) where
  raise := fun _ _ _ h => h
  enable := fun _ _ h => h
  pump := fun l h => by
    rw [LinkIface.queuesOk_iff] at h ⊢
    have hle := l.pump_responseQueue_le
    rw [LinkIface.pump_receiveQueue, LinkIface.pump_reading]
    omega
  respond := fun l r h hx => by
    rw [LinkIface.queuesOk_iff] at h ⊢
    obtain ⟨hread, hroom⟩ := l.canExecute_iff.1 hx
    exact ⟨h.1, by simp [hread]; omega⟩
  startRead := fun l r h hx => by
    rw [LinkIface.queuesOk_iff] at h ⊢
    obtain ⟨-, hroom⟩ := l.canExecute_iff.1 hx
    exact ⟨h.1, by simp; omega⟩
  endRead := fun l r x h hr => by
    rw [LinkIface.queuesOk_iff, hr] at h
    rw [LinkIface.queuesOk_iff]
    simpa using h
  take := fun l f rest h hq => by
    rw [LinkIface.queuesOk_iff, hq] at h
    rw [LinkIface.queuesOk_iff]
    exact ⟨(Nat.le_succ _).trans h.1, h.2⟩
  offer := fun _ f h => LinkIface.offer_queuesOk h f
  receive := fun _ _ h => h
  countError := fun _ h => h
  sent := fun _ h => h

/-! ### The commit queue (R127) -/

/-- The commit queue and both edit slots stand (R120, R127). -/
def EditsKept (e f : EditEngine) : Prop :=
  f.queue = e.queue ∧ f.consoleSlot = e.consoleSlot ∧ f.rundownSlot = e.rundownSlot

theorem EditsKept.refl (e : EditEngine) : EditsKept e e := ⟨rfl, rfl, rfl⟩

theorem State.setGuards_edits (s : State) (a b : Nat) : EditsKept s.ede (s.setGuards a b).ede := by
  unfold State.setGuards
  split <;> exact ⟨rfl, rfl, rfl⟩

theorem State.changeMode_ede (s : State) (m : Mode) :
    (s.changeMode m).ede = { s.ede with passesDue := s.ede.passesDue + 1 } := by
  unfold State.changeMode
  simp

theorem State.writeParam_edits (s : State) (p : Param) (v : Nat) : EditsKept s.ede (s.writeParam p v).1.ede := by
  cases p with
  | guardAbove | guardBelow => exact s.setGuards_edits _ _
  | centre n | deadband n | reverse n =>
    simp only [State.writeParam, State.tune]; split <;> exact .refl _
  | frameRate | outFraming o =>
    simp only [State.writeParam, State.writeOutput]; split <;> simpa using EditsKept.refl s.ede
  | paceMin => simp only [State.writeParam, State.writePaceMin]; split <;> exact .refl _
  | accel | decel | holdOver | autoConstant | paceMax | source | threshold | lockEntry => exact .refl _
  | _ =>
    simp only [State.writeParam, State.writeGeometry, State.writeOutput]
    simpa using EditsKept.refl s.ede

theorem doMode_edits (l : Link) (m : Nat) (s : State) : EditsKept s.ede (doMode l m s).1.ede := by
  unfold doMode
  (repeat' split)
  · exact .refl _
  · exact .refl _
  · exact .refl _
  · rw [State.changeMode_ede]; exact ⟨rfl, rfl, rfl⟩
  · exact ⟨rfl, rfl, rfl⟩

theorem State.haltPlayer_edits (s : State) : s.haltPlayer.ede = s.ede := by simp

theorem State.runPlayer_edits (s : State) (l : Link) (loop : Option Bool) :
    EditsKept s.ede (s.runPlayer l loop).1.ede := by
  unfold State.runPlayer
  split
  · split
    · exact ⟨rfl, rfl, rfl⟩
    · simpa using EditsKept.refl s.ede
  · simpa using EditsKept.refl s.ede

/-- The requests that work on the script, its edit slots or its commit queue. -/
def editRequest : Request → Bool
  | .clrs | .eopn .. | .elin .. | .eabn | .ecmt | .qcan .. | .qfrc .. | .tgts .. => true
  | _ => false

/-- Every other owner leaves store, commit queue and edit slots as they were. -/
theorem serve_edits {r : Request} (hr : editRequest r = false) (l : Link) (tag : Byte) (s : State) :
    (serve l tag r s).1.scs = s.scs ∧ EditsKept s.ede (serve l tag r s).1.ede := by
  have hscs : (serve l tag r s).1.scs = s.scs := by
    refine serve_sameBut l tag r s .scs ?_
    cases r <;> simp_all [ownerBlocks, editRequest]
  refine ⟨hscs, ?_⟩
  by_cases hb : .ede ∉ ownerBlocks r
  · have hede : (serve l tag r s).1.ede = s.ede := serve_sameBut l tag r s .ede hb
    rw [hede]; exact .refl _
  cases r with
  | rdln lid c =>
    simp only [serve, doRdln]
    split
    · exact ⟨rfl, rfl, rfl⟩
    · simpa [State.startRead] using EditsKept.refl s.ede
  | jump k p => simp only [serve, answered, doJump]; (repeat' split) <;> exact ⟨rfl, rfl, rfl⟩
  | cntr p => simp only [serve, answered, doCntr]; (repeat' split) <;> exact ⟨rfl, rfl, rfl⟩
  | parm n i v =>
    simp only [serve, answered, doParm]
    split
    · exact s.writeParam_edits _ _
    · exact .refl _
  | slck e lo hi c r st u => simp only [serve, answered, doSlck]; (repeat' split) <;> exact ⟨rfl, rfl, rfl⟩
  | mode m => exact doMode_edits l m s
  | dgrn a loop =>
    simp only [serve, answered, doDgrn]
    (repeat' split)
    · exact .refl _
    · exact s.runPlayer_edits ..
    · exact .refl _
    · exact s.runPlayer_edits ..
    · exact .refl _
  | _ => simp_all [ownerBlocks, editRequest]

/-! #### The commit queue's length -/

/-- The commit queue is within its places (R127). -/
def State.commitQueueOk (s : State) : Prop := s.ede.queue.length ≤ 4

theorem dependsOn_commitQueueOk : DependsOn [.ede] State.commitQueueOk := by
  intro s t h hs
  have hede : t.ede = s.ede := h .ede (by simp)
  simpa only [State.commitQueueOk, hede] using hs

/-- Passes due are all that differs of the edit engine (R132). -/
def PassesOnly (e f : EditEngine) : Prop := f = { e with passesDue := f.passesDue }

theorem PassesOnly.refl (e : EditEngine) : PassesOnly e e := rfl

theorem PassesOnly.trans {e f g : EditEngine} (h : PassesOnly e f) (k : PassesOnly f g) : PassesOnly e g := by
  unfold PassesOnly at *
  rw [k, h]

theorem PassesOnly.edits {e f : EditEngine} (h : PassesOnly e f) : EditsKept e f := by
  rw [h]; exact ⟨rfl, rfl, rfl⟩

theorem State.moveAnchor_passes (s : State) (a : Option Nat) (f : Nat) : PassesOnly s.ede (s.moveAnchor a f).ede := by
  rw [State.moveAnchor_ede]; rfl

theorem State.relocate_passes (s : State) (r : ContentReport) : PassesOnly s.ede (s.relocate r).ede := by
  unfold State.relocate
  split
  · split
    · dsimp only
      split
      · exact s.moveAnchor_passes _ _
      · exact s.moveAnchor_passes _ _
    · exact .refl _
  · exact .refl _

theorem State.firstAnchor_passes (s : State) (r : ContentReport) : PassesOnly s.ede (s.firstAnchor r).ede := by
  unfold State.firstAnchor
  split
  · exact s.moveAnchor_passes _ _
  · exact .refl _

theorem State.takeApply_passes (s : State) (r : ContentReport) : PassesOnly s.ede (s.takeApply r).ede := by
  have hend : PassesOnly s.ede (s.relocate r).endTest.ede := by simpa using s.relocate_passes r
  simpa [State.takeApply] using hend.trans (State.firstAnchor_passes _ r)

theorem State.takeClear_passes (s : State) : PassesOnly s.ede s.takeClear.ede := by
  unfold State.takeClear State.anchorEmptied
  dsimp only
  split <;> simp [PassesOnly]

theorem State.applyEntry_passes (s : State) (e : Entry) : PassesOnly s.ede (s.applyEntry e).ede := by
  have htake := State.takeApply_passes
    (({ s with scs := s.scs.applied e.edit e.lids } : State).raiseCommit .commitDone e.link e.tag none)
    (s.scs.report e.edit e.lids)
  have hsame : (({ s with scs := s.scs.applied e.edit e.lids } : State).raiseCommit .commitDone e.link e.tag none).ede =
      s.ede := by simp
  rw [hsame] at htake
  exact htake.trans rfl

theorem State.dropEntry_passes (s : State) (e : Entry) (c : Cause) : PassesOnly s.ede (s.dropEntry e c).ede := by
  simp [PassesOnly, State.dropEntry]

/-- A pass leaves as many entries in the queue as it found, or one fewer (R131). -/
theorem State.pass_queue_length (s : State) : s.pass.ede.queue.length ≤ s.ede.queue.length := by
  have hends := s.pass_ends
  generalize s.pass = t at hends
  generalize hq : s.ede.queue = q at hends
  cases hends with
  | kept u q' hu hall => simp [hall.length_eq]
  | removed u before before' after e cause detail hu hrest hall =>
    have hkept := (State.dropEntry_passes ((u.setQueue ([] ++ before' ++ after)).recordRefusal e.link .ecmt cause detail) e
      cause).edits.1
    rw [hkept, hrest]
    simp [hall.length_eq]
  | applied u before before' after e hu hrest hall =>
    have hkept := ((u.setQueue ([] ++ before' ++ after)).applyEntry_passes e).edits.1
    rw [hkept, hrest]
    simp [hall.length_eq]

theorem changeEntry_length (q : List Entry) (l : Link) (tag : Byte) (f : Entry → Entry) :
    (changeEntry q l tag f).length = q.length := by simp [changeEntry]

theorem withoutEntry_length (q : List Entry) (l : Link) (tag : Byte) : (withoutEntry q l tag).length ≤ q.length :=
  List.length_filter_le _ _

theorem State.copyDone_queue_length (s : State) (l : Link) (page : Page) (e : Entry) :
    (s.copyDone l page e).ede.queue.length ≤ s.ede.queue.length := by
  rw [State.copyDone_eq]
  split
  · rw [(State.dropEntry_passes _ _ _).edits.1]
    exact withoutEntry_length ..
  · refine (State.pass_queue_length _).trans ?_
    simp [changeEntry_length]

theorem State.startCopy_queue_length (s : State) (l : Link) (tag : Byte) (e : EditParams) (n : Nat) (page : Page)
    (st : Store) (lids : List Nat) :
    (s.startCopy l tag e n page st lids).ede.queue.length ≤ s.ede.queue.length + 1 := by
  have haccept : (s.acceptCommit l tag e n page st lids).ede.queue.length = s.ede.queue.length + 1 := by simp
  unfold State.startCopy
  dsimp only
  split
  · exact (State.copyDone_queue_length ..).trans haccept.le
  · exact haccept.le

/-- A commit that passes its checks finds room in the queue (R124 check 3). -/
theorem State.commitChecks_room {s : State} {l : Link} {tag : Byte} {e : EditParams} {n : Nat} {page : Page}
    (h : s.commitChecks l tag e n page = none) : s.ede.queue.length < 4 := by
  simp only [State.commitChecks, Option.or_eq_none_iff, failUnless] at h
  obtain ⟨⟨⟨-, hroom⟩, -⟩, -⟩ := h
  split at hroom
  · next hlt => exact of_decide_eq_true hlt
  · cases hroom

theorem doEcmt_queue {s : State} (h : s.commitQueueOk) (l : Link) (tag : Byte) : (doEcmt l tag s).1.commitQueueOk := by
  unfold doEcmt
  split
  · split
    · exact h
    · next hchecks =>
      split
      · exact h
      · have hroom := State.commitChecks_room hchecks
        exact (State.startCopy_queue_length ..).trans hroom
  · exact h

theorem doQcan_queue {s : State} (h : s.commitQueueOk) (l : Link) (el et : Nat) :
    (doQcan l el et s).1.commitQueueOk := by
  unfold doQcan
  split
  · exact h
  · split
    · exact h
    · split
      · exact h
      · unfold State.cancelEntry State.commitQueueOk
        split
        · show (changeEntry ..).length ≤ 4
          rw [changeEntry_length]
          exact h
        · rw [(State.dropEntry_passes _ _ _).edits.1]
          exact (withoutEntry_length ..).trans h

theorem State.forceEntry_queue {s : State} (h : s.commitQueueOk) (l : Link) (e : Entry) :
    (s.forceEntry l e).1.commitQueueOk := by
  have hwithout : (withoutEntry s.ede.queue e.link e.tag).length ≤ 4 := (withoutEntry_length ..).trans h
  unfold State.forceEntry State.commitQueueOk
  dsimp only
  split
  · show (changeEntry ..).length ≤ 4
    rw [changeEntry_length]
    exact h
  · split
    · rw [refuse, State.recordRefusal_ede]
      show (State.dropEntry _ _ _).ede.queue.length ≤ 4
      rw [(State.dropEntry_passes _ _ _).edits.1]
      exact hwithout
    · show (State.applyEntry _ _).ede.queue.length ≤ 4
      rw [(State.applyEntry_passes _ _).edits.1]
      exact hwithout

theorem doQfrc_queue {s : State} (h : s.commitQueueOk) (l : Link) (el et : Nat) :
    (doQfrc l el et s).1.commitQueueOk := by
  unfold doQfrc
  split
  · exact h
  · split
    · exact h
    · split
      · exact State.forceEntry_queue h ..
      · exact h

theorem serve_queue {s : State} (h : s.commitQueueOk) (l : Link) (tag : Byte) (r : Request) :
    (serve l tag r s).1.commitQueueOk := by
  by_cases hr : editRequest r = false
  · have hkept := (serve_edits hr l tag s).2.1
    unfold State.commitQueueOk
    rw [hkept]
    exact h
  cases r with
  | clrs =>
    have hkept := (State.takeClear_passes { s with scs := Store.empty, ede := s.ede.clearShow }).edits.1
    show s.clearShow.ede.queue.length ≤ 4
    rw [State.clearShow, State.takeReport]
    exact hkept ▸ Nat.zero_le _
  | eopn e n =>
    simp only [serve, answered, doEopn]
    (repeat' split) <;> simpa [State.commitQueueOk] using h
  | elin k st m c tx =>
    simp only [serve, answered, doElin]
    (repeat' split) <;> simpa [State.commitQueueOk, refuse] using h
  | eabn =>
    simp only [serve, answered, doEabn]
    (repeat' split) <;> simpa [State.commitQueueOk] using h
  | ecmt => exact doEcmt_queue h l tag
  | qcan el et => exact doQcan_queue h l el et
  | qfrc el et => exact doQfrc_queue h l el et
  | tgts n t =>
    simp only [serve, answered, doTgts]
    (repeat' split) <;> exact h
  | _ => exact absurd rfl hr

/-- The values of a load leave queue and slots as they were (R164). -/
theorem State.takeSettings_edits (s : State) (v : Settings) : EditsKept s.ede (s.takeSettings v).ede := by
  have harbiter : (s.arbiterTaken v).ede = s.ede := by simp [State.arbiterTaken, State.shapersTaken, State.portsTaken]
  unfold State.takeSettings
  dsimp only
  rw [← State.portsTaken, ← State.shapersTaken, ← State.arbiterTaken, ← harbiter]
  generalize s.arbiterTaken v = u
  have hguards := State.setGuards_edits ((((u.setSlew v.accel v.decel).setPace v.paceMin v.paceMax).setConstant
    v.constant).setGeometry v.rows v.eyeRow) v.guardAbove v.guardBelow
  simpa using hguards

theorem State.takeDefaults_edits (s : State) : EditsKept s.ede s.takeDefaults.ede := by
  have htaken := s.takeSettings_edits Settings.defaults
  unfold State.takeDefaults
  rwa [State.raise_ede, State.setStore_ede]

theorem State.takeImage_edits (s : State) (image : List Word16) : EditsKept s.ede (s.takeImage image).ede := by
  unfold State.takeImage
  split
  · rw [State.setStore_ede]
    exact s.takeSettings_edits _
  · exact s.takeDefaults_edits

theorem State.leaveLoading_edits (s : State) : EditsKept s.ede s.leaveLoading.ede := by
  unfold State.leaveLoading
  split
  · rw [State.changeMode_ede]; exact ⟨rfl, rfl, rfl⟩
  · exact .refl _

theorem EditsKept.trans {e f g : EditEngine} (h : EditsKept e f) (k : EditsKept f g) : EditsKept e g :=
  ⟨k.1.trans h.1, k.2.1.trans h.2.1, k.2.2.trans h.2.2⟩

/-- The events that work on the script, its edit slots or its commit queue. -/
def editEvent : Instr → Bool
  | .resetLine _ | .copyCompletion _ | .queuePass => true
  | _ => false

theorem State.stepMove_passes (s : State) : PassesOnly s.ede s.stepMove.ede := by
  unfold State.stepMove
  split
  · unfold State.applyJump
    dsimp only
    split
    · exact .refl _
    · exact State.moveAnchor_passes _ _ _
  · split
    · exact .refl _
    · split
      · exact .refl _
      · unfold State.drive State.integrate
        have hlanding (u : State) (x : Landing) : PassesOnly u.ede (u.takeLanding x).ede := by
          unfold State.takeLanding
          dsimp only
          split <;> exact u.moveAnchor_passes _ _
        split
        · split
          · simpa using hlanding s _
          · exact .refl _
        · split
          · split
            · exact hlanding s _
            · exact .refl _
          · exact .refl _

theorem State.scrollStep_passes (s : State) : PassesOnly s.ede s.scrollStep.ede := by
  simpa [State.scrollStep] using s.takeButtons.stepMove_passes

/-- Every other event that may change the edit engine leaves queue and slots as they were. -/
theorem exec_edits {c : Instr} (hc : editEvent c = false) (hb : apart [.ede] (eventBlocks c) = false) (s : State) :
    Ends (fun u => EditsKept s.ede u.ede) (exec c s) := by
  cases c with
  | resetLine | copyCompletion | queuePass => cases hc
  | loadCompletion w image =>
    dsimp only [exec, execLoadCompletion]
    split
    · have htaken := State.takeImage_edits { s.reach w with mem := memoryAtLoad s.mem image }
        (readImage (memoryAtLoad s.mem image))
      exact ends_finish (htaken.trans (State.leaveLoading_edits _))
    · exact ends_finish (.refl _)
  | settingsLoadTimeout w =>
    dsimp only [exec, execSettingsLoadTimeout]
    split
    · have htaken := (s.reach w).takeDefaults_edits
      rw [State.reach_ede] at htaken
      exact ends_finish (htaken.trans (State.leaveLoading_edits _))
    · exact ends_finish (.refl _)
  | scrollStep => exact ends_finish (s.scrollTickTaken.scrollStep_passes.edits)
  | _ => cases hb

/-- Settles O5: the queues of the links by the rule of link interfaces, the commit queue because a commit is accepted only
with a place free. -/
theorem stepKeepsQueuesWithinPlaces : Obligations.StepKeepsQueuesWithinPlaces := by
  intro s t h ht
  simp only [State.queuesOk, Bool.and_eq_true, decide_eq_true_eq] at h ⊢
  obtain ⟨⟨hqueue, hcli⟩, hrli⟩ := h
  have hlinks : LinksMeet (fun _ l => l.queuesOk = true) t := by
    refine step_keeps_links (fun _ => keptByLink_queuesOk) rfl rfl (fun l => ?_) ht
    cases l
    exacts [hcli, hrli]
  have hcommit : t.commitQueueOk := by
    refine step_keeps dependsOn_commitQueueOk (by decide) (fun _ _ h => h) (fun l tag r _ _ _ h => serve_queue h l tag r)
      (fun c s _ hb h => ?_) s t hqueue ht
    by_cases hc : editEvent c = false
    · exact (exec_edits hc hb s).mono fun u hu => by
        unfold State.commitQueueOk
        rw [hu.1]
        exact h
    · cases c with
      | resetLine n => exact ends_finish (Nat.zero_le _)
      | copyCompletion l =>
        dsimp only [exec, execCopyCompletion]
        (repeat' split)
        · exact ends_finish ((State.copyDone_queue_length ..).trans h)
        · exact ends_finish (by simpa [State.commitQueueOk] using h)
        · exact ends_finish h
      | queuePass => exact ends_finish ((State.pass_queue_length _).trans h)
      | _ => exact absurd rfl hc
  exact ⟨⟨hcommit, hlinks .console⟩, hlinks .rundown⟩

end Sys2Proof.Machine

/-! PROOFS. The numbers of the hand side within their ranges (R71, R76, R78, R79, R83, R90, R168, R169). -/

namespace Sys2Proof.Machine

/-! ### Counters -/

theorem bump_le (n : Nat) : bump n ≤ Config.counterMax := Nat.min_le_right _ _

theorem bumpBy_le (n g : Nat) : bumpBy n g ≤ Config.counterMax := Nat.min_le_right _ _

/-! ### The shaper (R90, R92 to R98) -/

theorem Shaping.ok_iff (p : Shaping) : p.ok = true ↔
    p.centre ≤ 4095 ∧ p.deadband ≤ 255 ∧ p.curve.length = 33 ∧ ∀ v ∈ p.curve, v ≤ 16384 := by
  simp only [Shaping.ok, Bool.and_eq_true, decide_eq_true_eq, List.all_eq_true, and_assoc]
  rfl

theorem curvePoint_le {p : Shaping} (h : p.ok = true) (k : Nat) : curvePoint p k ≤ 16384 := by
  obtain ⟨-, -, -, hall⟩ := p.ok_iff.1 h
  unfold curvePoint
  rw [List.getD_eq_getElem?_getD]
  cases hk : p.curve[k]? with
  | none => simp
  | some v => exact hall v (List.mem_of_getElem? hk)

/-- A point between two points of a curve, its part of the segment rounded toward zero, lies between them (R96). -/
theorem interpolated_between (a b f : Nat) (hf : f < 64) :
    (0 : Int) ≤ a + Int.tdiv (((b : Int) - a) * f) 64 ∧ a + Int.tdiv (((b : Int) - a) * f) 64 ≤ max a b := by
  rcases Nat.le_total a b with hab | hab
  · obtain ⟨d, rfl⟩ := Nat.exists_eq_add_of_le hab
    have hx : (((a + d : Nat) : Int) - a) * f = ((d * f : Nat) : Int) := by push_cast; ring
    have hle : d * f / 64 ≤ d := by
      have : d * f ≤ d * 64 := Nat.mul_le_mul_left _ (by omega)
      omega
    have hdiv : Int.tdiv ((d * f : Nat) : Int) 64 = ((d * f / 64 : Nat) : Int) := rfl
    rw [hx, hdiv]
    omega
  · obtain ⟨d, rfl⟩ := Nat.exists_eq_add_of_le hab
    have hx : ((b : Int) - ((b + d : Nat) : Int)) * f = -((d * f : Nat) : Int) := by push_cast; ring
    have hle : d * f / 64 ≤ d := by
      have : d * f ≤ d * 64 := Nat.mul_le_mul_left _ (by omega)
      omega
    have hdiv : Int.tdiv ((d * f : Nat) : Int) 64 = ((d * f / 64 : Nat) : Int) := rfl
    rw [hx, Int.neg_tdiv, hdiv]
    omega

theorem shapeMagnitude_range {p : Shaping} (h : p.ok = true) (x : Nat) :
    0 ≤ shapeMagnitude p x ∧ shapeMagnitude p x ≤ 16384 := by
  by_cases hx : 2048 ≤ x
  · rw [shapeMagnitude_saturated hx]
    have := curvePoint_le h 32
    omega
  · rw [shapeMagnitude_interpolated (by omega)]
    have hbetween := interpolated_between (curvePoint p (x / 64)) (curvePoint p (x / 64 + 1)) (x % 64)
      (Nat.mod_lt _ (by decide))
    have hlow := curvePoint_le h (x / 64)
    have hhigh := curvePoint_le h (x / 64 + 1)
    omega

theorem speedOk_iff (v : Int) : speedOk v = true ↔ v.natAbs ≤ 16384 := by
  simp only [speedOk, decide_eq_true_eq]
  rfl

/-- A shaped demand lies within the speeds (R83, R97). -/
theorem shape_speedOk {p : Shaping} (h : p.ok = true) (kind : UnitKind) (r : Nat) : speedOk (shape p kind r) = true := by
  rw [speedOk_iff]
  have hm := shapeMagnitude_range h ((shapeOffset p kind r).natAbs - p.deadband)
  unfold shape
  dsimp only
  (repeat' split) <;> omega

/-! ### Hand ports -/

theorem HandPort.ok_iff (p : HandPort) : p.ok = true ↔
    p.counters.ok = true ∧ p.assembler.ok = true ∧ p.badRun ≤ 8 ∧ p.silence < 5 ∧ (∀ e, p.expected = some e → e ≤ 63) ∧
      (∀ d, p.latch.deflection = some d → d ≤ 4095) ∧ speedOk p.latch.demand = true := by
  simp only [HandPort.ok, Bool.and_eq_true, decide_eq_true_eq, Option.all_eq_true, and_assoc]
  rfl

theorem PortCounters.ok_iff (c : PortCounters) : c.ok = true ↔
    c.valid ≤ 65535 ∧ c.parity ≤ 65535 ∧ c.framing ≤ 65535 ∧ c.length ≤ 65535 ∧ c.kind ≤ 65535 ∧ c.aborted ≤ 65535 ∧
      c.missed ≤ 65535 := by
  simp only [PortCounters.ok, Bool.and_eq_true, decide_eq_true_eq, and_assoc]
  rfl

/-- A port with another state, latch emptied and records gone is in range (R82). -/
theorem HandPort.left_ok {p : HandPort} (h : p.ok = true) (st : PortState) : (p.left st).ok = true := by
  rw [HandPort.ok_iff] at h ⊢
  obtain ⟨hc, ha, hb, -, -, hd, -⟩ := h
  exact ⟨hc, ha, hb, by simp [HandPort.left], by simp [HandPort.left], hd, rfl⟩

theorem HandPort.badFrame_ok {p : HandPort} (h : p.ok = true) : p.badFrame.ok = true := by
  have hrun : ({ p with badRun := min (p.badRun + 1) Config.badRunMax } : HandPort).ok = true := by
    rw [HandPort.ok_iff] at h ⊢
    obtain ⟨hc, ha, -, hs, he, hd, hv⟩ := h
    exact ⟨hc, ha, Nat.min_le_right _ _, hs, he, hd, hv⟩
  unfold HandPort.badFrame
  dsimp only
  split
  · exact HandPort.left_ok hrun _
  · exact hrun

/-- A port whose counters and assembler take values in range. -/
theorem HandPort.ok_with {p : HandPort} (h : p.ok = true) {c : PortCounters} {a : Assembler} (hc : c.ok = true)
    (ha : a.ok = true) : ({ p with counters := c, assembler := a } : HandPort).ok = true := by
  rw [HandPort.ok_iff] at h ⊢
  exact ⟨hc, ha, h.2.2⟩

theorem HandPort.ok_counters {p : HandPort} (h : p.ok = true) : p.counters.ok = true := (p.ok_iff.1 h).1

theorem HandPort.ok_assembler {p : HandPort} (h : p.ok = true) : p.assembler.ok = true := (p.ok_iff.1 h).2.1

theorem HandPort.framingError_ok {p : HandPort} (h : p.ok = true) : p.framingError.ok = true := by
  have hc := (PortCounters.ok_iff _).1 (HandPort.ok_counters h)
  exact HandPort.badFrame_ok (HandPort.ok_with h
    ((PortCounters.ok_iff _).2 ⟨hc.1, hc.2.1, bump_le _, hc.2.2.2⟩) (HandPort.ok_assembler h))

theorem HandPort.lengthError_ok {p : HandPort} (h : p.ok = true) : p.lengthError.ok = true := by
  obtain ⟨hv, hp, hf, -, hk, ha, hm⟩ := (PortCounters.ok_iff _).1 (HandPort.ok_counters h)
  exact HandPort.badFrame_ok (HandPort.ok_with h
    ((PortCounters.ok_iff _).2 ⟨hv, hp, hf, bump_le _, hk, ha, hm⟩) (HandPort.ok_assembler h))

theorem HandPort.kindError_ok {p : HandPort} (h : p.ok = true) : p.kindError.ok = true := by
  obtain ⟨hv, hp, hf, hl, -, ha, hm⟩ := (PortCounters.ok_iff _).1 (HandPort.ok_counters h)
  exact HandPort.badFrame_ok (HandPort.ok_with h
    ((PortCounters.ok_iff _).2 ⟨hv, hp, hf, hl, bump_le _, ha, hm⟩) (HandPort.ok_assembler h))

theorem HandPort.parityError_ok {p : HandPort} (h : p.ok = true) : p.parityError.ok = true := by
  obtain ⟨hv, -, hf, hl, hk, ha, hm⟩ := (PortCounters.ok_iff _).1 (HandPort.ok_counters h)
  exact HandPort.badFrame_ok (HandPort.ok_with h
    ((PortCounters.ok_iff _).2 ⟨hv, bump_le _, hf, hl, hk, ha, hm⟩) rfl)

theorem HandPort.abortWord_ok {p : HandPort} (h : p.ok = true) : p.abortWord.ok = true := by
  obtain ⟨hv, hp, hf, hl, hk, -, hm⟩ := (PortCounters.ok_iff _).1 (HandPort.ok_counters h)
  exact HandPort.ok_with h ((PortCounters.ok_iff _).2 ⟨hv, hp, hf, hl, hk, bump_le _, hm⟩) rfl

theorem HandPort.assembling_ok {p : HandPort} (h : p.ok = true) {a : Assembler} (ha : a.ok = true) :
    ({ p with assembler := a } : HandPort).ok = true := HandPort.ok_with h (HandPort.ok_counters h) ha

theorem HandPort.firstWord_ok {p : HandPort} (h : p.ok = true) (w : HandBits) : (p.firstWord w).ok = true := by
  have hcut : (if p.assembler.isOpen then p.framingError else p).ok = true := by
    split
    · exact HandPort.framingError_ok h
    · exact h
  unfold HandPort.firstWord
  dsimp only
  split
  · exact HandPort.lengthError_ok (HandPort.assembling_ok hcut rfl)
  · refine HandPort.assembling_ok hcut ?_
    simp only [Assembler.ok, decide_eq_true_eq]
    omega

/-- A frame's fields within their widths (R70). -/
def HandFrame.ok (f : HandFrame) : Prop := f.seq ≤ 63 ∧ f.deflection ≤ 4095

theorem HandPort.laterWord_ok {p : HandPort} (h : p.ok = true) (w : HandBits) :
    (p.laterWord w).1.ok = true ∧ ∀ f, (p.laterWord w).2 = some f → f.ok := by
  have hasm := HandPort.ok_assembler h
  unfold HandPort.laterWord
  split
  · exact ⟨HandPort.framingError_ok h, by simp⟩
  · exact ⟨h, by simp⟩
  · next kind seq ha =>
    rw [ha] at hasm
    split
    · exact ⟨HandPort.lengthError_ok (HandPort.assembling_ok h rfl), by simp⟩
    · refine ⟨HandPort.assembling_ok h ?_, by simp⟩
      simp only [Assembler.ok, decide_eq_true_eq, Bool.and_eq_true] at hasm ⊢
      omega
  · next kind seq d ha =>
    rw [ha] at hasm
    simp only [Assembler.ok, decide_eq_true_eq, Bool.and_eq_true] at hasm
    split
    · unfold HandPort.completeFrame
      dsimp only
      split
      · exact ⟨HandPort.kindError_ok (HandPort.assembling_ok h rfl), by simp⟩
      · exact ⟨HandPort.assembling_ok h rfl, fun f hf => by cases hf; exact hasm⟩
    · exact ⟨HandPort.lengthError_ok (HandPort.assembling_ok h rfl), by simp⟩

theorem HandPort.takeWord_ok {p : HandPort} (h : p.ok = true) (w : HandBits) :
    (p.takeWord w).1.ok = true ∧ ∀ f, (p.takeWord w).2 = some f → f.ok := by
  unfold HandPort.takeWord
  split
  · split
    · exact ⟨HandPort.abortWord_ok h, by simp⟩
    · split
      · exact ⟨HandPort.firstWord_ok h w, by simp⟩
      · exact HandPort.laterWord_ok h w
  · exact ⟨HandPort.parityError_ok h, by simp⟩

theorem HandPort.frameTaken_ok {p : HandPort} (h : p.ok = true) (f : HandFrame) : (p.frameTaken f).ok = true := by
  obtain ⟨-, hp, hf, hl, hk, ha, -⟩ := (PortCounters.ok_iff _).1 (HandPort.ok_counters h)
  rw [HandPort.ok_iff] at h ⊢
  obtain ⟨-, hasm, -, -, -, hd, hv⟩ := h
  refine ⟨(PortCounters.ok_iff _).2 ⟨bump_le _, hp, hf, hl, hk, ha, bumpBy_le _ _⟩, hasm, Nat.zero_le _,
    by simp [HandPort.frameTaken],
    fun e he => ?_, hd, hv⟩
  simp only [HandPort.frameTaken, Option.some.injEq] at he
  omega

theorem HandPort.validFrame_ok {p : HandPort} (h : p.ok = true) (m : Mode) {sh : Shaping} (hs : sh.ok = true)
    {f : HandFrame} (hf : f.ok) : (p.validFrame m sh f).ok = true := by
  unfold HandPort.validFrame
  split
  · exact HandPort.frameTaken_ok h f
  · have htaken := HandPort.frameTaken_ok h f
    rw [HandPort.ok_iff] at htaken ⊢
    obtain ⟨hc, ha, hb, hsil, he, -, -⟩ := htaken
    exact ⟨hc, ha, hb, hsil, he, fun d hd => by cases hd; exact hf.2, shape_speedOk hs _ _⟩

theorem HandPort.sample_ok {p : HandPort} (h : p.ok = true) {sh : Shaping} (hs : sh.ok = true) {d : Nat} (hd : d ≤ 4095)
    (b : Buttons) : (p.sample sh d b).ok = true := by
  rw [HandPort.ok_iff] at h ⊢
  obtain ⟨hc, ha, hb, hsil, he, -, -⟩ := h
  exact ⟨hc, ha, hb, hsil, he, fun x hx => by cases hx; exact hd, shape_speedOk hs _ _⟩

theorem HandPort.cleared_ok {p : HandPort} (h : p.ok = true) : p.cleared.ok = true := by
  rw [HandPort.ok_iff] at h ⊢
  obtain ⟨hc, ha, hb, hsil, he, hd, -⟩ := h
  exact ⟨hc, ha, hb, hsil, he, hd, rfl⟩

theorem HandPort.tick_ok {p : HandPort} (h : p.ok = true) : p.tick.ok = true := by
  unfold HandPort.tick
  split
  · split
    · exact HandPort.left_ok h _
    · next hsil =>
      rw [HandPort.ok_iff] at h ⊢
      obtain ⟨hc, ha, hb, -, he, hd, hv⟩ := h
      exact ⟨hc, ha, hb, Nat.not_le.1 hsil, he, hd, hv⟩
  · exact h

theorem HandPort.withEnable_ok {p : HandPort} (h : p.ok = true) (on : Bool) : (p.withEnable on).ok = true := by
  unfold HandPort.withEnable
  split
  · exact h
  · split
    · rw [HandPort.ok_iff] at h ⊢
      obtain ⟨hc, -, -, -, -, hd, hv⟩ := h
      exact ⟨hc, rfl, Nat.zero_le _, by simp, by simp, hd, hv⟩
    · exact HandPort.left_ok h _

/-! ### The player (R168, R169) -/

theorem Player.ok_iff (p : Player) : p.ok = true ↔
    p.table.length = 256 ∧ (∀ e ∈ p.table, e.ok = true) ∧ p.length ≤ 256 ∧ p.remaining ≤ 255 := by
  simp only [Player.ok, Bool.and_eq_true, decide_eq_true_eq, List.all_eq_true, and_assoc]

theorem PlayerEntry.ok_iff (e : PlayerEntry) : e.ok = true ↔ e.deflection ≤ 4095 ∧ 1 ≤ e.duration ∧ e.duration ≤ 255 := by
  simp only [PlayerEntry.ok, Bool.and_eq_true, decide_eq_true_eq, and_assoc]

theorem Player.entryAt_ok {p : Player} (h : p.ok = true) (c : Nat) : (p.entryAt c).ok = true := by
  obtain ⟨-, hall, -, -⟩ := p.ok_iff.1 h
  unfold Player.entryAt
  rw [List.getD_eq_getElem?_getD]
  cases hc : p.table[c]? with
  | none => rfl
  | some e => exact hall e (List.mem_of_getElem? hc)

theorem Player.durationAt_le {p : Player} (h : p.ok = true) (c : Option Nat) : p.durationAt c ≤ 255 := by
  cases c with
  | none => exact Nat.zero_le _
  | some c => exact ((PlayerEntry.ok_iff _).1 (Player.entryAt_ok h c)).2.2

theorem Player.advance_ok {p : Player} (h : p.ok = true) (c : Nat) : (p.advance c).ok = true := by
  have hp := p.ok_iff.1 h
  unfold Player.advance
  split
  · exact (Player.ok_iff _).2 ⟨hp.1, hp.2.1, hp.2.2.1, Player.durationAt_le h _⟩
  · exact (Player.ok_iff _).2 ⟨hp.1, hp.2.1, hp.2.2.1, by show p.remaining - 1 ≤ 255; omega⟩

theorem Player.started_ok {p : Player} (h : p.ok = true) (loop : Bool) : (p.started loop).ok = true := by
  have hp := p.ok_iff.1 h
  exact (Player.ok_iff _).2 ⟨hp.1, hp.2.1, hp.2.2.1, Player.durationAt_le h (some 0)⟩

theorem takenEntries_ok {args : List PlayerArg} {es : List PlayerEntry} (h : takenEntries args = some es) :
    es.length = args.length ∧ ∀ e ∈ es, e.ok = true := by
  induction args generalizing es with
  | nil => cases h; simp
  | cons a rest ih =>
    unfold takenEntries at h
    split at h
    · next n es' hn hes =>
      cases h
      obtain ⟨hlen, hall⟩ := ih hes
      refine ⟨by simp [hlen], fun e he => ?_⟩
      rcases List.mem_cons.1 he with rfl | he
      · simp only [PlayerEntry.ok_iff, takenEntry, clampTo]
        omega
      · exact hall e he
    · cases h

theorem writeEntries_ok {table es : List PlayerEntry} {first : Nat} (hf : first + es.length ≤ table.length)
    (ht : ∀ e ∈ table, e.ok = true) (he : ∀ e ∈ es, e.ok = true) :
    (writeEntries table first es).length = table.length ∧ ∀ e ∈ writeEntries table first es, e.ok = true := by
  refine ⟨by simp [writeEntries]; omega, fun e hm => ?_⟩
  simp only [writeEntries, List.mem_append] at hm
  rcases hm with (hm | hm) | hm
  · exact ht e (List.mem_of_mem_take hm)
  · exact he e hm
  · exact ht e (List.mem_of_mem_drop hm)

/-! ### The hand side of the state -/

theorem State.handOk_iff (s : State) : s.handOk = true ↔
    (∀ n, (s.dsh.get n).ok = true) ∧ (∀ n, (s.port n).ok = true) ∧ s.msc.player.ok = true := by
  simp only [State.handOk, Bool.and_eq_true, Four.all_toList, and_assoc]
  rfl

theorem State.handOk_congr {s t : State} (h : s.handOk = true) (hd : t.dsh = s.dsh) (hp : t.ports = s.ports)
    (hm : t.msc.player = s.msc.player) : t.handOk = true := by
  unfold State.handOk at h ⊢
  rwa [hd, hp, hm]

theorem dependsOn_handOk : DependsOn [.dsh, .ports, .msc] (fun s => s.handOk = true) := by
  intro s t h hs
  have hmsc : t.msc = s.msc := h .msc (by simp)
  exact State.handOk_congr hs (h .dsh (by simp)) (h .ports (by simp)) (by rw [hmsc])

theorem State.handOk_ports {s t : State} (h : s.handOk = true) (hd : t.dsh = s.dsh) (hm : t.msc.player = s.msc.player)
    (hp : ∀ n, (t.port n).ok = true) : t.handOk = true := by
  rw [State.handOk_iff] at h ⊢
  rw [hd, hm]
  exact ⟨h.1, hp, h.2.2⟩

theorem State.handOk_shaping {s t : State} (h : s.handOk = true) (hp : t.ports = s.ports)
    (hm : t.msc.player = s.msc.player) (hd : ∀ n, (t.dsh.get n).ok = true) : t.handOk = true := by
  rw [State.handOk_iff] at h ⊢
  have hport (n) : t.port n = s.port n := by rw [State.port, hp, State.port]
  rw [hm]
  exact ⟨hd, fun n => by rw [hport]; exact h.2.1 n, h.2.2⟩

theorem State.handOk_player {s t : State} (h : s.handOk = true) (hd : t.dsh = s.dsh) (hp : t.ports = s.ports)
    (hm : t.msc.player.ok = true) : t.handOk = true := by
  rw [State.handOk_iff] at h ⊢
  have hport (n) : t.port n = s.port n := by rw [State.port, hp, State.port]
  rw [hd]
  exact ⟨h.1, fun n => by rw [hport]; exact h.2.1 n, hm⟩

theorem State.takePort_port (s : State) (n m : Fin 4) (p : HandPort) :
    (s.takePort n p).port m = if m = n then p else s.port m := by
  have hports : (s.takePort n p).ports = s.ports.set n p := by
    unfold State.takePort State.changePort
    dsimp only
    split <;> split <;> simp
  rw [State.port, hports, Four.get_set, State.port]

theorem State.takePort_hand {s : State} (h : s.handOk = true) (n : Fin 4) {p : HandPort} (hp : p.ok = true) :
    (s.takePort n p).handOk = true := by
  refine State.handOk_ports h (by simp) (by simp) fun m => ?_
  rw [State.takePort_port]
  split
  · exact hp
  · exact (s.handOk_iff.1 h).2.1 m

theorem State.clearLatches_port (s : State) (n : Fin 4) : s.clearLatches.port n = (s.port n).cleared := by
  rcases s.clearLatches_cases with ⟨hc, -⟩ | ⟨hc, -⟩ <;> rw [hc] <;> simp [State.port]

theorem State.clearLatches_hand {s : State} (h : s.handOk = true) : s.clearLatches.handOk = true := by
  refine State.handOk_ports h (by simp) (by simp) fun n => ?_
  rw [State.clearLatches_port]
  exact HandPort.cleared_ok ((s.handOk_iff.1 h).2.1 n)

theorem State.stopPlayer_hand {s : State} (h : s.handOk = true) : s.stopPlayer.handOk = true :=
  State.clearLatches_hand (State.handOk_player h rfl rfl (s.handOk_iff.1 h).2.2)

theorem State.haltPlayer_hand {s : State} (h : s.handOk = true) : s.haltPlayer.handOk = true := by
  unfold State.haltPlayer
  split
  · exact State.stopPlayer_hand h
  · exact h

theorem State.startPlayer_hand {s : State} (h : s.handOk = true) (loop : Bool) : (s.startPlayer loop).handOk = true := by
  have hhalt := s.haltPlayer.handOk_iff.1 (State.haltPlayer_hand h)
  rw [State.handOk_iff]
  refine ⟨hhalt.1, fun n => ?_, Player.started_ok hhalt.2.2 loop⟩
  have hport : (s.startPlayer loop).port n = { s.haltPlayer.port n with playerRecord := Edges.none } := by
    simp [State.startPlayer, State.port, releasedRecords]
  rw [hport]
  exact hhalt.2.1 n

theorem State.playerTick_hand {s : State} (h : s.handOk = true) : s.playerTick.handOk = true := by
  obtain ⟨hshaping, hports, hplayer⟩ := s.handOk_iff.1 h
  unfold State.playerTick
  split
  · exact State.stopPlayer_hand h
  · next c _ =>
    have hentry := (PlayerEntry.ok_iff _).1 (Player.entryAt_ok hplayer c)
    have hpresent : (s.present (s.msc.player.entryAt c)).handOk = true :=
      State.takePort_hand h _ (HandPort.sample_ok (hports _) (hshaping _) hentry.1 _)
    exact State.handOk_player hpresent rfl rfl (Player.advance_ok hplayer c)

/-! ### Owners of the hand side -/

theorem writePoints_ok {curve taken : List Nat} {first : Nat} (hf : first + taken.length ≤ curve.length)
    (hc : ∀ v ∈ curve, v ≤ 16384) (ht : ∀ v ∈ taken, v ≤ 16384) :
    (writePoints curve first taken).length = curve.length ∧ ∀ v ∈ writePoints curve first taken, v ≤ 16384 := by
  refine ⟨by simp [writePoints]; omega, fun v hv => ?_⟩
  simp only [writePoints, List.mem_append] at hv
  rcases hv with (hv | hv) | hv
  · exact hc v (List.mem_of_mem_take hv)
  · exact ht v hv
  · exact hc v (List.mem_of_mem_drop hv)

theorem State.setShaping_hand {s : State} (h : s.handOk = true) (n : Fin 4) {p : Shaping} (hp : p.ok = true) :
    (s.setShaping n p).handOk = true := by
  refine State.handOk_shaping h rfl rfl fun m => ?_
  rw [State.setShaping_dsh, Four.get_set]
  split
  · exact hp
  · exact (s.handOk_iff.1 h).1 m

theorem State.tune_hand {s : State} (h : s.handOk = true) (n : Fin 4) {p : Shaping} (hp : p.ok = true) (v : Nat) :
    (s.tune n p v).1.handOk = true := by
  unfold State.tune
  split
  · exact h
  · exact State.setShaping_hand h n hp

theorem doCrvw_hand {s : State} (h : s.handOk = true) (p f : Nat) (vs : List Nat) :
    (doCrvw p f vs s).1.handOk = true := by
  unfold doCrvw
  split
  · exact h
  · next n _ =>
    split
    · exact h
    · next hrun =>
      split
      · exact h
      · obtain ⟨hcentre, hdead, hlen, hall⟩ := (Shaping.ok_iff _).1 ((s.handOk_iff.1 h).1 n)
        have hfit : f + (vs.map pointTaken).length ≤ (s.dsh.get n).curve.length := by
          simp only [runOk, Bool.not_eq_true', Bool.not_eq_false, Bool.and_eq_true, decide_eq_true_eq] at hrun
          simp [hlen]
          omega
        have hwritten := writePoints_ok hfit hall (fun v hv => by
          obtain ⟨x, -, rfl⟩ := List.mem_map.1 hv
          exact Nat.min_le_right _ _)
        exact State.setShaping_hand h n ((Shaping.ok_iff _).2
          ⟨hcentre, hdead, hwritten.1.trans hlen, hwritten.2⟩)

theorem doCntr_hand {s : State} (h : s.handOk = true) (l : Link) (p : Nat) : (doCntr l p s).1.handOk = true := by
  unfold doCntr
  split
  · exact h
  · next n _ =>
    split
    · exact h
    · split
      · exact h
      · next d hd =>
        have hle := ((HandPort.ok_iff _).1 ((s.handOk_iff.1 h).2.1 n)).2.2.2.2.2.1 d hd
        obtain ⟨-, hrest⟩ := (Shaping.ok_iff _).1 ((s.handOk_iff.1 h).1 n)
        exact State.setShaping_hand h n ((Shaping.ok_iff _).2 ⟨hle, hrest⟩)

theorem State.writeParam_hand {s : State} (h : s.handOk = true) (p : Param) (v : Nat) :
    (s.writeParam p v).1.handOk = true := by
  have hshape (n) := (Shaping.ok_iff _).1 ((s.handOk_iff.1 h).1 n)
  cases p with
  | portEnable n => exact State.takePort_hand h n (HandPort.withEnable_ok ((s.handOk_iff.1 h).2.1 n) _)
  | centre n =>
    simp only [State.writeParam]
    refine State.tune_hand h n ?_ _
    exact (Shaping.ok_iff _).2 ⟨Nat.min_le_right _ _, (hshape n).2⟩
  | deadband n =>
    simp only [State.writeParam]
    refine State.tune_hand h n ?_ _
    exact (Shaping.ok_iff _).2 ⟨(hshape n).1, Nat.min_le_right _ _, (hshape n).2.2⟩
  | reverse n =>
    simp only [State.writeParam]
    refine State.tune_hand h n ?_ _
    exact (Shaping.ok_iff _).2 (hshape n)
  | frameRate | outFraming o =>
    simp only [State.writeParam, State.writeOutput]
    split
    · exact State.handOk_congr h (by simp) (by simp) (by simp)
    · exact h
  | paceMin =>
    simp only [State.writeParam, State.writePaceMin]
    split <;> exact State.handOk_congr h rfl rfl rfl
  | accel | decel | holdOver | autoConstant | paceMax | source | threshold | lockEntry =>
    exact State.handOk_congr h rfl rfl rfl
  | _ =>
    simp only [State.writeParam, State.writeGeometry, State.writeOutput]
    exact State.handOk_congr h (by simp) (by simp) (by simp)

theorem doDgld_hand {s : State} (h : s.handOk = true) (f : Nat) (es : List PlayerArg) (n : Nat) :
    (doDgld f es n s).1.handOk = true := by
  unfold doDgld
  split
  · exact h
  · next hload =>
    split
    · exact h
    · next taken htaken =>
      split
      · exact h
      · obtain ⟨htable, hall, -, hrem⟩ := (Player.ok_iff _).1 (s.handOk_iff.1 h).2.2
        obtain ⟨hlen, hok⟩ := takenEntries_ok htaken
        have hfit : f + taken.length ≤ s.msc.player.table.length := by
          simp only [loadOk, Bool.not_eq_true', Bool.not_eq_false, Bool.and_eq_true, decide_eq_true_eq] at hload
          omega
        have hwritten := writeEntries_ok hfit hall hok
        exact State.handOk_player h rfl rfl ((Player.ok_iff _).2
          ⟨hwritten.1.trans htable, hwritten.2, Nat.min_le_right _ _, hrem⟩)

theorem State.modePorts_hand {s : State} (h : s.handOk = true) (a b : Mode) : (s.modePorts a b).handOk = true := by
  unfold State.modePorts
  split
  · exact State.stopPlayer_hand h
  · exact h

theorem State.changeMode_hand {s : State} (h : s.handOk = true) (m : Mode) : (s.changeMode m).handOk = true := by
  have hmode : ({ s with msc := { s.msc with mode := m } } : State).handOk = true := State.handOk_congr h rfl rfl rfl
  have hports := State.modePorts_hand hmode s.msc.mode m
  exact State.handOk_congr hports (by simp [State.changeMode]) (by simp [State.changeMode]) (by simp [State.changeMode])

theorem doMode_hand {s : State} (h : s.handOk = true) (l : Link) (m : Nat) : (doMode l m s).1.handOk = true := by
  unfold doMode
  (repeat' split)
  · exact h
  · exact h
  · exact h
  · exact State.changeMode_hand h _
  · exact h

theorem State.leaveLoading_hand {s : State} (h : s.handOk = true) : s.leaveLoading.handOk = true := by
  unfold State.leaveLoading
  split
  · exact State.changeMode_hand h _
  · exact h

theorem State.runPlayer_hand {s : State} (h : s.handOk = true) (l : Link) (loop : Option Bool) :
    (s.runPlayer l loop).1.handOk = true := by
  unfold State.runPlayer
  split
  · split
    · exact h
    · exact State.startPlayer_hand h _
  · exact State.haltPlayer_hand h

theorem serve_hand {s : State} (h : s.handOk = true) (l : Link) (tag : Byte) (r : Request)
    (hb : apart [.dsh, .ports, .msc] (ownerBlocks r) = false) : (serve l tag r s).1.handOk = true := by
  cases r with
  | parm n i v =>
    simp only [serve, answered, doParm]
    split
    · exact State.writeParam_hand h _ _
    · exact h
  | crvw p f vs => exact doCrvw_hand h p f vs
  | cntr p => exact doCntr_hand h l p
  | mode m => exact doMode_hand h l m
  | save => simp only [serve, answered, doSave]; (repeat' split) <;> exact State.handOk_congr h rfl rfl rfl
  | load => simp only [serve, answered, doLoad]; (repeat' split) <;> exact State.handOk_congr h rfl rfl rfl
  | dgld f es n => exact doDgld_hand h f es n
  | dgrn a loop =>
    simp only [serve, answered, doDgrn]
    (repeat' split)
    · exact h
    · exact State.runPlayer_hand h ..
    · exact h
    · exact State.runPlayer_hand h ..
    · exact h
  | _ => cases hb

/-! ### Settings in range (R163, R164) -/

/-- Whatever its words, an image reads as settings in range (R164). -/
theorem settingsOf_inRange (image : List Word16) : (settingsOf image).inRange = true := by
  have hshape (p : Nat) : (shapingOf image p).ok = true := by
    refine (Shaping.ok_iff _).2 ⟨Nat.min_le_right _ _, Nat.min_le_right _ _, by simp [shapingOf], fun v hv => ?_⟩
    simp only [shapingOf, List.mem_map] at hv
    obtain ⟨k, -, rfl⟩ := hv
    exact Nat.min_le_right _ _
  have hsource (n : Nat) : (sourceEntryOf image n).ok = true := by
    exact decide_eq_true (Nat.min_le_right _ _)
  have hshapes : (settingsOf image).shaping.toList.all (·.ok) = true := by
    simp [settingsOf, Four.toList, hshape]
  have hhands : (settingsOf image).hand.toList.all (·.ok) = true := by
    simp [settingsOf, Four.toList, hsource]
  simp only [Settings.inRange, Bool.and_eq_true, decide_eq_true_eq, hshapes, hhands, true_and]
  simp only [settingsOf, hsource, clampTo, Config.speedMax, true_and]
  omega

theorem defaults_inRange : Settings.defaults.inRange = true := by rfl

theorem State.takeSettings_hand {s : State} (h : s.handOk = true) {v : Settings} (hv : v.inRange = true) :
    (s.takeSettings v).handOk = true := by
  have hshape (n) : (v.shaping.get n).ok = true := by
    simp only [Settings.inRange, Bool.and_eq_true, and_assoc, Four.all_toList] at hv
    exact hv.1 n
  have henable {u : State} (hu : u.handOk = true) (n : Fin 4) (on : Bool) : (u.setPortEnable n on).handOk = true :=
    State.takePort_hand hu n (HandPort.withEnable_ok ((u.handOk_iff.1 hu).2.1 n) on)
  have hports : (s.portsTaken v).handOk = true := henable (henable (henable (henable h 0 _) 1 _) 2 _) 3 _
  have hshapers : (s.shapersTaken v).handOk = true := by
    unfold State.shapersTaken
    generalize s.portsTaken v = u at hports
    exact State.handOk_shaping hports rfl rfl hshape
  have harbiter : (s.arbiterTaken v).handOk = true :=
    State.handOk_congr hshapers (by simp [State.arbiterTaken]) (by simp [State.arbiterTaken]) (by simp [State.arbiterTaken])
  unfold State.takeSettings
  dsimp only
  rw [← State.portsTaken, ← State.shapersTaken, ← State.arbiterTaken]
  generalize s.arbiterTaken v = u at harbiter
  exact State.handOk_congr harbiter (by simp) (by simp) (by simp)

theorem State.takeDefaults_hand {s : State} (h : s.handOk = true) : s.takeDefaults.handOk = true :=
  State.handOk_congr (State.takeSettings_hand h defaults_inRange) (by simp [State.takeDefaults])
    (by simp [State.takeDefaults]) (by simp [State.takeDefaults])

theorem State.takeImage_hand {s : State} (h : s.handOk = true) (image : List Word16) :
    (s.takeImage image).handOk = true := by
  unfold State.takeImage
  split
  · exact State.handOk_congr (State.takeSettings_hand h (settingsOf_inRange image)) (by simp) (by simp) (by simp)
  · exact State.takeDefaults_hand h

theorem resetAt_handOk (now : Nat) (mem : List Host.Cell) (pending : List Instr) :
    (State.resetAt now mem pending).handOk = true := by
  have hplayer : Player.reset.ok = true :=
    (Player.ok_iff _).2 ⟨List.length_replicate .., fun e he => by rw [List.eq_of_mem_replicate he]; rfl, by decide, by decide⟩
  exact (State.handOk_iff _).2 ⟨fun n => by simp [State.resetAt]; rfl, fun n => by simp [State.resetAt, State.port]; rfl, hplayer⟩

theorem exec_hand {c : Instr} {s : State} (h : s.handOk = true)
    (hb : apart [.dsh, .ports, .msc] (eventBlocks c) = false) : Ends (fun u => u.handOk = true) (exec c s) := by
  obtain ⟨hshaping, hports, -⟩ := s.handOk_iff.1 h
  cases c with
  | resetLine n => exact ends_finish (resetAt_handOk ..)
  | resetRelease w =>
    dsimp only [exec, execResetRelease]
    split <;> exact ends_finish (State.handOk_congr h rfl rfl rfl)
  | loadCompletion w image =>
    dsimp only [exec, execLoadCompletion]
    split
    · have hread : ({ s.reach w with mem := memoryAtLoad s.mem image } : State).handOk = true := h
      exact ends_finish (State.leaveLoading_hand (State.takeImage_hand hread _))
    · exact ends_finish h
  | settingsLoadTimeout w =>
    dsimp only [exec, execSettingsLoadTimeout]
    have hreach : (s.reach w).handOk = true := h
    split
    · exact ends_finish (State.leaveLoading_hand (State.takeDefaults_hand hreach))
    · exact ends_finish hreach
  | saveCompletion back =>
    dsimp only [exec, execSaveCompletion]
    (repeat' split) <;> exact ends_finish (State.handOk_congr h rfl rfl rfl)
  | saveTimeout n =>
    dsimp only [exec, execSaveTimeout]
    split <;> exact ends_finish (State.handOk_congr h rfl rfl rfl)
  | scrollStep =>
    refine ends_finish (State.handOk_ports h (by simp) (by simp) fun n => ?_)
    have hport : s.scrollTickTaken.scrollStep.port n = { s.port n with buttons := Edges.none } := by
      simp [State.port, State.scrollStep]
    rw [hport]
    exact hports n
  | portTick n =>
    exact ends_finish (State.takePort_hand (s := s.portTickTaken n) h n (HandPort.tick_ok (hports n)))
  | portSilenceExpiry n =>
    dsimp only [exec, execPortSilenceExpiry]
    split
    · exact ends_finish (State.takePort_hand (s := s.portTickTaken n) h n (HandPort.tick_ok (hports n)))
    · exact ends_finish h
  | handWord n w =>
    have hword := HandPort.takeWord_ok (hports n) w
    dsimp only [exec, execHandWord]
    split
    · exact ends_finish h
    · split
      · next p hp => rw [hp] at hword; exact ends_finish (State.takePort_hand h n hword.1)
      · next p f hp =>
        rw [hp] at hword
        exact ends_finish (State.takePort_hand h n (HandPort.validFrame_ok hword.1 _ (hshaping n) (hword.2 f rfl)))
  | playerTick =>
    dsimp only [exec, execPlayerTick]
    split
    · exact ends_finish (State.playerTick_hand (s := s.playerTickTaken) h)
    · exact ends_finish h
  | _ => cases hb

/-- Every step keeps the numbers of the hand side within their ranges. -/
theorem step_keeps_handOk : ∀ s t, s.handOk = true → step s = .next t → t.handOk = true :=
  step_keeps dependsOn_handOk (by decide) (fun _ _ h => h) (fun l tag r _ _ hb h => serve_hand h l tag r hb)
    (fun _ _ _ hb h => exec_hand h hb)

end Sys2Proof.Machine

/-! PROOFS. The numbers of the timebase and the scroll engine within their ranges (R21, R24, R35, R36, R106, R110, R116). -/

namespace Sys2Proof.Machine

/-! ### The timebase -/

/-- The speeds, the glitch counter and the clock of the timebase within their ranges (R106, R110, R116). -/
def Timebase.ok (t : Timebase) : Prop :=
  t.constant ≤ 16384 ∧ t.paceMin ≤ t.paceMax ∧ t.paceMax ≤ 16384 ∧ t.glitches ≤ 65535 ∧ t.clock ≤ 4294967295

/-- The ranged numbers of the timebase stand. -/
def NumbersKept (e f : Timebase) : Prop :=
  f.constant = e.constant ∧ f.paceMin = e.paceMin ∧ f.paceMax = e.paceMax ∧ f.glitches = e.glitches ∧ f.clock = e.clock

theorem NumbersKept.refl (e : Timebase) : NumbersKept e e := ⟨rfl, rfl, rfl, rfl, rfl⟩

theorem NumbersKept.trans {e f g : Timebase} (h : NumbersKept e f) (k : NumbersKept f g) : NumbersKept e g := by
  obtain ⟨h1, h2, h3, h4, h5⟩ := h
  obtain ⟨k1, k2, k3, k4, k5⟩ := k
  exact ⟨k1.trans h1, k2.trans h2, k3.trans h3, k4.trans h4, k5.trans h5⟩

theorem NumbersKept.ok {e f : Timebase} (h : NumbersKept e f) (he : e.ok) : f.ok := by
  obtain ⟨h1, h2, h3, h4, h5⟩ := h
  unfold Timebase.ok
  rw [h1, h2, h3, h4, h5]
  exact he

theorem dependsOn_timebaseOk : DependsOn [.tbp] (fun s => s.tbp.ok) := by
  intro s t h hs
  have htbp : t.tbp = s.tbp := h .tbp (by simp)
  rwa [htbp]

theorem State.enterRef_numbers (s : State) (r : RefState) : NumbersKept s.tbp (s.enterRef r).tbp := by
  unfold State.enterRef
  dsimp only
  split <;> exact ⟨rfl, rfl, rfl, rfl, rfl⟩

theorem State.tickAt_numbers (s : State) (w : Nat) : NumbersKept s.tbp (s.tickAt w).tbp := ⟨rfl, rfl, rfl, rfl, rfl⟩

theorem State.overdueTick_numbers (s : State) : NumbersKept s.tbp s.overdueTick.tbp := by
  unfold State.overdueTick
  split
  · exact s.tickAt_numbers _
  · exact .refl _

theorem State.setRate_numbers (s : State) (r : Rate) : NumbersKept s.tbp (s.setRate r).tbp := by
  unfold State.setRate
  split
  · exact .refl _
  · exact NumbersKept.trans ⟨rfl, rfl, rfl, rfl, rfl⟩ (State.overdueTick_numbers _)

theorem State.setRefSelect_numbers (s : State) (on : Bool) : NumbersKept s.tbp (s.setRefSelect on).tbp := by
  unfold State.setRefSelect
  dsimp only
  split
  · exact .refl _
  · have henter (r) : NumbersKept s.tbp (State.enterRef { s with tbp := { s.tbp with refSelect := on } } r).tbp :=
      NumbersKept.trans ⟨rfl, rfl, rfl, rfl, rfl⟩ (State.enterRef_numbers _ r)
    split
    · exact henter _
    · exact (henter _).trans (State.overdueTick_numbers _)

theorem State.fireTimer_numbers (s : State) (k : Fin 4) : NumbersKept s.tbp (s.fireTimer k).tbp := by
  unfold State.fireTimer
  dsimp only
  split <;> exact ⟨rfl, rfl, rfl, rfl, rfl⟩

theorem State.fireTimers_numbers (s : State) : NumbersKept s.tbp s.fireTimers.tbp :=
  (((s.fireTimer_numbers 0).trans (State.fireTimer_numbers _ 1)).trans (State.fireTimer_numbers _ 2)).trans
    (State.fireTimer_numbers _ 3)

theorem State.changeMode_numbers (s : State) (m : Mode) : NumbersKept s.tbp (s.changeMode m).tbp := by
  unfold State.changeMode State.modeRest
  dsimp only
  split <;> simp [NumbersKept]

theorem State.leaveLoading_numbers (s : State) : NumbersKept s.tbp s.leaveLoading.tbp := by
  unfold State.leaveLoading
  split
  · exact s.changeMode_numbers _
  · exact .refl _

theorem State.lockedEdge_timebase {s : State} (h : s.tbp.ok) : s.lockedEdge.tbp.ok := by
  unfold State.lockedEdge
  split
  · exact ⟨h.1, h.2.1, h.2.2.1, bump_le _, h.2.2.2.2⟩
  · exact (s.tickAt_numbers _).ok h

theorem State.advanceClock_timebase {s : State} (h : s.tbp.ok) : s.advanceClock.tbp.ok := by
  unfold State.advanceClock
  split
  · exact ⟨h.1, h.2.1, h.2.2.1, h.2.2.2.1, Nat.min_le_right _ _⟩
  · exact h

theorem State.setConstant_timebase {s : State} (h : s.tbp.ok) (v : Nat) : (s.setConstant v).tbp.ok :=
  ⟨Nat.min_le_right _ _, h.2⟩

theorem State.setPace_timebase {s : State} (h : s.tbp.ok) {lo hi : Nat} (hle : lo ≤ hi) (hhi : hi ≤ 16384) :
    (s.setPace lo hi).tbp.ok :=
  ⟨h.1, hle, hhi, h.2.2.2⟩

theorem Settings.inRange_numbers {v : Settings} (h : v.inRange = true) :
    (v.paceMin ≤ v.paceMax ∧ v.paceMax ≤ 16384) ∧ (1 ≤ v.accel ∧ v.accel ≤ 4096 ∧ 1 ≤ v.decel ∧ v.decel ≤ 4096) ∧
      (1 ≤ v.rows ∧ v.rows ≤ 24 ∧ v.eyeRow < v.rows) ∧ (v.guardAbove ≤ 16 ∧ v.guardBelow ≤ 32) := by
  simp only [Settings.inRange, Bool.and_eq_true, decide_eq_true_eq] at h
  simp only [Config.speedMax] at h
  omega

theorem State.takeSettings_timebase {s : State} (h : s.tbp.ok) {v : Settings} (hv : v.inRange = true) :
    (s.takeSettings v).tbp.ok := by
  obtain ⟨⟨hle, hmax⟩, -⟩ := Settings.inRange_numbers hv
  have htbp : (s.arbiterTaken v).tbp = s.tbp := by simp [State.arbiterTaken, State.shapersTaken, State.portsTaken]
  unfold State.takeSettings
  dsimp only
  rw [← State.portsTaken, ← State.shapersTaken, ← State.arbiterTaken]
  generalize s.arbiterTaken v = u at htbp
  have hu : u.tbp.ok := htbp ▸ h
  refine (State.setRefSelect_numbers _ _).ok ((State.setRate_numbers _ _).ok ?_)
  simpa using State.setConstant_timebase (s := (u.setSlew v.accel v.decel).setPace v.paceMin v.paceMax)
    (State.setPace_timebase hu hle hmax) v.constant

theorem State.takeImage_timebase {s : State} (h : s.tbp.ok) (image : List Word16) : (s.takeImage image).tbp.ok := by
  unfold State.takeImage State.takeDefaults
  split
  · simpa using State.takeSettings_timebase h (settingsOf_inRange image)
  · simpa using State.takeSettings_timebase h defaults_inRange

theorem State.takeDefaults_timebase {s : State} (h : s.tbp.ok) : s.takeDefaults.tbp.ok := by
  simpa [State.takeDefaults] using State.takeSettings_timebase h defaults_inRange

theorem State.writeParam_timebase {s : State} (h : s.tbp.ok) (p : Param) (v : Nat) : (s.writeParam p v).1.tbp.ok := by
  obtain ⟨hc, hle, hmax, hg, hclock⟩ := id h
  cases p with
  | refSelect => exact (s.setRefSelect_numbers _).ok h
  | frameRate =>
    simp only [State.writeParam]
    split
    · exact (s.setRate_numbers _).ok h
    · exact h
  | autoConstant => exact State.setConstant_timebase h v
  | paceMin =>
    have hv : min v Config.speedMax ≤ 16384 := Nat.min_le_right _ _
    simp only [State.writeParam, State.writePaceMin]
    split
    · exact State.setPace_timebase h le_rfl hv
    · exact State.setPace_timebase h (by omega) hmax
  | paceMax =>
    have hv : min v Config.speedMax ≤ 16384 := Nat.min_le_right _ _
    exact State.setPace_timebase h (Nat.le_max_left _ _) (by omega)
  | centre n | deadband n | reverse n => simp only [State.writeParam, State.tune]; split <;> exact h
  | outFraming o => simp only [State.writeParam, State.writeOutput]; split <;> simpa using h
  | accel | decel | holdOver | source | threshold | lockEntry => exact h
  | _ =>
    simp only [State.writeParam, State.writeGeometry, State.writeOutput]
    simpa using h

theorem doClkc_timebase {s : State} (h : s.tbp.ok) {a : Nat} {v : Option Nat} (hv : ∀ x, v = some x → x < 4294967296) :
    (doClkc a v s).1.tbp.ok := by
  unfold doClkc
  split
  · exact h
  · exact h
  · next x => exact ⟨h.1, h.2.1, h.2.2.1, h.2.2.2.1, Nat.le_of_lt_succ (hv x rfl)⟩
  · exact h

theorem serve_timebase {s : State} (h : s.tbp.ok) (l : Link) (tag : Byte) (r : Request) (hw : r.wellFormed = true)
    (hb : apart [.tbp] (ownerBlocks r) = false) : (serve l tag r s).1.tbp.ok := by
  cases r with
  | parm n i v =>
    simp only [serve, answered, doParm]
    split
    · exact State.writeParam_timebase h _ _
    · exact h
  | clkc a v =>
    refine doClkc_timebase h fun x hx => ?_
    simp only [Request.wellFormed, hx, optFits, Bool.and_eq_true, fits32_iff] at hw
    exact hw.2
  | cuea k c => simp only [serve, answered, doCuea]; split <;> exact h
  | cued k => simp only [serve, answered, doCued]; split <;> exact h
  | amod m c =>
    have hc : (s.setConstant? c).tbp.ok := by
      cases c with
      | none => exact h
      | some v => exact State.setConstant_timebase h v
    simp only [serve, answered, doAmod, State.setAutoMode]
    split
    · exact h
    · split
      · exact hc
      · rw [(State.regrant_frame _).2.2.2.2.2.2.1]; exact hc
  | mode m =>
    simp only [serve, answered, doMode]
    (repeat' split)
    · exact h
    · exact h
    · exact h
    · exact (s.changeMode_numbers _).ok h
    · exact h
  | _ => cases hb

theorem resetTimebase_ok (now : Nat) : (Timebase.reset now).ok := by
  simp [Timebase.ok, Timebase.reset]

theorem exec_timebase {c : Instr} {s : State} (h : s.tbp.ok) (hb : apart [.tbp] (eventBlocks c) = false) :
    Ends (fun u => u.tbp.ok) (exec c s) := by
  cases c with
  | resetLine n => exact ends_finish (resetTimebase_ok _)
  | resetRelease w => dsimp only [exec, execResetRelease]; split <;> exact ends_finish h
  | loadCompletion w image =>
    dsimp only [exec, execLoadCompletion]
    split
    · have hread : ({ s.reach w with mem := memoryAtLoad s.mem image } : State).tbp.ok := h
      exact ends_finish ((State.leaveLoading_numbers _).ok (State.takeImage_timebase hread _))
    · exact ends_finish h
  | settingsLoadTimeout w =>
    dsimp only [exec, execSettingsLoadTimeout]
    have hreach : (s.reach w).tbp.ok := h
    split
    · exact ends_finish ((State.leaveLoading_numbers _).ok (State.takeDefaults_timebase hreach))
    · exact ends_finish hreach
  | referenceEdge w =>
    have hreach : (s.reach w).tbp.ok := h
    dsimp only [exec, execReferenceEdge]
    (repeat' split)
    · exact ends_finish hreach
    · exact ends_finish hreach
    · exact ends_finish ((State.enterRef_numbers _ _).ok ((State.tickAt_numbers _ _).ok hreach))
    · exact ends_finish (State.lockedEdge_timebase hreach)
  | internalTick => dsimp only [exec, execInternalTick]; split <;> exact ends_finish h
  | referenceLoss =>
    dsimp only [exec, execReferenceLoss]
    split
    · exact ends_finish h
    · exact ends_finish ((State.enterRef_numbers _ _).ok ((State.tickAt_numbers _ _).ok h))
  | showTimeTick =>
    have hclock : s.showTimeTickTaken.advanceClock.tbp.ok := State.advanceClock_timebase (s := s.showTimeTickTaken) h
    exact ends_finish (by simpa using (State.fireTimers_numbers _).ok hclock)
  | cueTimer k => exact ends_finish ((s.fireTimer_numbers k).ok h)
  | _ => cases hb

theorem step_keeps_timebaseOk : ∀ s t : State, s.tbp.ok → step s = .next t → t.tbp.ok :=
  step_keeps dependsOn_timebaseOk (by decide) (fun _ _ h => h) (fun l tag r _ hw hb h => serve_timebase h l tag r hw hb)
    (fun _ _ _ hb h => exec_timebase h hb)

/-! ### The scroll engine -/

theorem ScrollEngine.ok_iff (e : ScrollEngine) : e.ok = true ↔
    e.fraction < 4096 ∧ e.velocity.natAbs ≤ 16384 ∧ 1 ≤ e.accel ∧ e.accel ≤ 4096 ∧ 1 ≤ e.decel ∧ e.decel ≤ 4096 := by
  simp only [ScrollEngine.ok, Bool.and_eq_true, decide_eq_true_eq, speedOk_iff, and_assoc]
  rfl

/-- The scroll engine and the console's speed within their ranges (R21, R24, R35, R36). -/
def ScrollEngine.Ok (e : ScrollEngine) : Prop :=
  e.fraction < 4096 ∧ e.velocity.natAbs ≤ 16384 ∧ (1 ≤ e.accel ∧ e.accel ≤ 4096 ∧ 1 ≤ e.decel ∧ e.decel ≤ 4096) ∧
    e.manualSpeed.natAbs ≤ 16384

theorem State.scrollOk_iff (s : State) : s.scrollOk = true ↔
    s.sce.Ok ∧ s.tbp.constant ≤ 16384 ∧ s.tbp.paceMin ≤ s.tbp.paceMax ∧ s.tbp.paceMax ≤ 16384 := by
  have hoffers : s.offersOk = true ↔ s.sce.manualSpeed.natAbs ≤ 16384 ∧ s.tbp.constant ≤ 16384 ∧
      s.tbp.paceMin ≤ s.tbp.paceMax ∧ s.tbp.paceMax ≤ 16384 := by
    simp only [State.offersOk, Bool.and_eq_true, decide_eq_true_eq, speedOk_iff, and_assoc]
    rfl
  simp only [State.scrollOk, Bool.and_eq_true, ScrollEngine.ok_iff, hoffers, ScrollEngine.Ok]
  tauto

/-- An engine that keeps its speeds takes a fraction and a velocity in range. -/
theorem SpeedsKept.ok {e f : ScrollEngine} (h : SpeedsKept e f) (he : e.Ok) (hf : f.fraction < 4096)
    (hv : f.velocity.natAbs ≤ 16384) : f.Ok := by
  obtain ⟨hm, ha, hd⟩ := h
  unfold ScrollEngine.Ok
  rw [hm, ha, hd]
  exact ⟨hf, hv, he.2.2⟩

theorem ApplyTook.ok {e f : ScrollEngine} (h : ApplyTook e f) (he : e.Ok) : f.Ok := by
  obtain ⟨-, hf, hv⟩ := id h
  have hfrac := he.1
  have hvel := he.2.1
  exact h.speeds.ok he (by omega) (by omega)

theorem ScrollEngine.press_ok {e : ScrollEngine} (he : e.Ok) (b : Edges) : (e.press b).Ok := by
  have hkept : (e.press b).fraction = e.fraction ∧ ((e.press b).velocity = e.velocity ∨ (e.press b).velocity = 0) := by
    unfold ScrollEngine.press ScrollEngine.release ScrollEngine.toggleFreeze
    dsimp only
    (repeat' split) <;> simp
  have hvel := he.2.1
  exact (e.press_speeds b).ok he (by rw [hkept.1]; exact he.1) (by rcases hkept.2 with h | h <;> rw [h] <;> omega)

/-- A moved value lies between the value and its target (R29). -/
theorem toward_natAbs_le {v target : Int} {m : Nat} (hv : v.natAbs ≤ m) (ht : target.natAbs ≤ m) (limit : Nat) :
    (toward v target limit).natAbs ≤ m := by
  unfold toward
  split
  · exact ht
  · split <;> omega

theorem slew_natAbs_le {v target : Int} {m : Nat} (hv : v.natAbs ≤ m) (ht : target.natAbs ≤ m) (a b : Nat) :
    (slew v target a b).natAbs ≤ m := by
  unfold slew
  split
  · exact toward_natAbs_le hv (by simp) b
  · split
    · exact toward_natAbs_le hv ht b
    · exact toward_natAbs_le hv ht a

theorem pacedDemand_le {lo hi r : Nat} {f : Int} : pacedDemand lo hi r f ≤ hi := by
  unfold pacedDemand
  split
  · exact le_rfl
  · exact Nat.min_le_right _ _

/-- The target of a step lies within the speeds (R28, R117). -/
theorem State.target_natAbs_le {s : State} (hh : s.handOk = true) (hs : s.sce.Ok) (ht : s.tbp.ok) (p : Nat) :
    (s.target p).natAbs ≤ 16384 := by
  obtain ⟨hc, -, hmax, -⟩ := ht
  unfold State.target
  split
  · simp
  · split
    · simp
    · exact hs.2.2.2
    · next n _ =>
      unfold State.handTarget
      split
      · exact (speedOk_iff _).1 ((HandPort.ok_iff _).1 ((s.handOk_iff.1 hh).2.1 n)).2.2.2.2.2.2
      · simp
    · have hauto : s.autoDemand p ≤ 16384 := by
        unfold State.autoDemand State.storyDemand
        split
        · simp
        · exact hc
        · split
          · split
            · exact pacedDemand_le.trans hmax
            · exact hc
          · exact hc
      simpa using hauto

/-- A landing lies on a line's units, at 0 or at the speed given (R30 to R34). -/
theorem Store.landing_ranges {st : Store} {p : Nat} {v : Int} {l : Landing} (h : st.landing p v = some l) :
    l.fraction < 4096 ∧ (l.velocity = 0 ∨ l.velocity = v) := by
  have hat {q : Nat} {w : Int} (hl : st.landAt q w = some l) : l.fraction < 4096 ∧ l.velocity = w := by
    obtain ⟨-, hf, hv, -⟩ := Store.landAt_eq hl
    exact ⟨hf ▸ Nat.mod_lt _ (by decide), hv⟩
  unfold Store.landing at h
  split at h
  · next hv =>
    unfold Store.landForward at h
    split at h
    · cases h; exact ⟨by simp, .inl rfl⟩
    · split at h
      · exact ⟨(hat h).1, .inl (hat h).2⟩
      · exact ⟨(hat h).1, .inr (by rw [(hat h).2]; exact Int.toNat_of_nonneg hv.le)⟩
  · split at h
    · unfold Store.landBackward at h
      split at h
      · exact ⟨(hat h).1, .inl (hat h).2⟩
      · exact ⟨(hat h).1, .inr (hat h).2⟩
    · cases h

theorem State.stepMove_ok {s : State} (hh : s.handOk = true) (hs : s.sce.Ok) (ht : s.tbp.ok) : s.stepMove.sce.Ok := by
  have hspeeds := s.stepMove_speeds
  have hzero : s.sce.fraction < 4096 ∧ (0 : Int).natAbs ≤ 16384 := ⟨hs.1, by simp⟩
  suffices hnum : s.stepMove.sce.fraction < 4096 ∧ s.stepMove.sce.velocity.natAbs ≤ 16384 from
    hspeeds.ok hs hnum.1 hnum.2
  unfold State.stepMove
  split
  · rw [State.applyJump_sce]
    split
    · exact ⟨hs.1, hs.2.1⟩
    · exact ⟨by simp, by simp⟩
  · split
    · exact hzero
    · next p _ =>
      split
      · exact hzero
      · rw [State.drive, State.integrate_sce]
        split
        · next l hl =>
          have hland := Store.landing_ranges hl
          have hslew := slew_natAbs_le hs.2.1 (State.target_natAbs_le hh hs ht p) s.sce.accel s.sce.decel
          rw [State.takeLanding_sce]
          refine ⟨hland.1, ?_⟩
          rcases hland.2 with hv | hv <;> rw [hv]
          · simp
          · exact hslew
        · exact hzero

theorem State.scrollStep_ok {s : State} (hh : s.handOk = true) (hs : s.sce.Ok) (ht : s.tbp.ok) :
    s.scrollStep.sce.Ok := by
  have hbuttons : s.takeButtons.handOk = true := by
    refine State.handOk_ports hh rfl rfl fun n => ?_
    have hport : s.takeButtons.port n = { s.port n with buttons := Edges.none } := by simp [State.port]
    rw [hport]
    exact (s.handOk_iff.1 hh).2.1 n
  simpa [State.scrollStep] using State.stepMove_ok (s := s.takeButtons) hbuttons (ScrollEngine.press_ok hs _) ht

theorem dependsOn_sceOk : DependsOn [.sce] (fun s => s.sce.Ok) := by
  intro s t h hs
  have hsce : t.sce = s.sce := h .sce (by simp)
  rwa [hsce]

theorem clampSpeed_natAbs (v : Int) : (clampSpeed v).natAbs ≤ 16384 := by
  unfold clampSpeed
  simp only [Config.speedMax]
  omega

theorem State.takeClear_ok {s : State} (h : s.sce.Ok) : s.takeClear.sce.Ok := by
  have hsce : s.takeClear.sce = s.sce.clearShow := by
    unfold State.takeClear
    simp
  rw [hsce]
  exact ⟨by simp [ScrollEngine.clearShow], by simp [ScrollEngine.clearShow], h.2.2.1, by simp [ScrollEngine.clearShow]⟩

theorem State.changeMode_ok {s : State} (h : s.sce.Ok) (m : Mode) : (s.changeMode m).sce.Ok := by
  rw [State.changeMode_sce]
  split
  · exact ⟨h.1, by simp, h.2.2⟩
  · exact h

theorem State.leaveLoading_ok {s : State} (h : s.sce.Ok) : s.leaveLoading.sce.Ok := by
  unfold State.leaveLoading
  split
  · exact State.changeMode_ok h _
  · exact h

theorem State.takeSettings_ok {s : State} (h : s.sce.Ok) {v : Settings} (hv : v.inRange = true) :
    (s.takeSettings v).sce.Ok := by
  rw [State.takeSettings_sce]
  exact ⟨h.1, h.2.1, (Settings.inRange_numbers hv).2.1, h.2.2.2⟩

theorem State.takeDefaults_ok {s : State} (h : s.sce.Ok) : s.takeDefaults.sce.Ok := by
  simpa [State.takeDefaults] using State.takeSettings_ok h defaults_inRange

theorem State.takeImage_ok {s : State} (h : s.sce.Ok) (image : List Word16) : (s.takeImage image).sce.Ok := by
  unfold State.takeImage
  split
  · simpa using State.takeSettings_ok h (settingsOf_inRange image)
  · exact State.takeDefaults_ok h

theorem clampTo_range {lo hi : Nat} (h : lo ≤ hi) (n : Nat) : lo ≤ clampTo lo hi n ∧ clampTo lo hi n ≤ hi := by
  unfold clampTo
  omega

theorem State.writeParam_ok {s : State} (h : s.sce.Ok) (p : Param) (v : Nat) : (s.writeParam p v).1.sce.Ok := by
  obtain ⟨hf, hvel, ⟨ha, ha', hd, hd'⟩, hm⟩ := id h
  obtain ⟨hlo, hhi⟩ := clampTo_range (lo := 1) (hi := 4096) (by decide) v
  cases p with
  | accel => exact ⟨hf, hvel, ⟨hlo, hhi, hd, hd'⟩, hm⟩
  | decel => exact ⟨hf, hvel, ⟨ha, ha', hlo, hhi⟩, hm⟩
  | centre n | deadband n | reverse n => simp only [State.writeParam, State.tune]; split <;> exact h
  | frameRate | outFraming o => simp only [State.writeParam, State.writeOutput]; split <;> simpa using h
  | paceMin => simp only [State.writeParam, State.writePaceMin]; split <;> exact h
  | holdOver | autoConstant | paceMax | source | threshold | lockEntry => exact h
  | _ =>
    simp only [State.writeParam, State.writeGeometry, State.writeOutput]
    simpa using h

theorem serve_sceOk {s : State} (h : s.sce.Ok) (l : Link) (tag : Byte) (r : Request)
    (hb : apart [.sce] (ownerBlocks r) = false) : (serve l tag r s).1.sce.Ok := by
  cases r with
  | clrs => exact State.takeClear_ok (s := { s with scs := Store.empty, ede := s.ede.clearShow }) h
  | mspd v =>
    have hset : s.sce.fraction < 4096 ∧ s.sce.velocity.natAbs ≤ 16384 ∧
        (1 ≤ s.sce.accel ∧ s.sce.accel ≤ 4096 ∧ 1 ≤ s.sce.decel ∧ s.sce.decel ≤ 4096) ∧
        (clampSpeed v).natAbs ≤ 16384 := ⟨h.1, h.2.1, h.2.2.1, clampSpeed_natAbs v⟩
    simp only [serve, answered, doMspd, State.setManualSpeed]
    split
    · exact hset
    · rw [(State.regrant_frame _).2.2.2.2.2.1]; exact hset
  | frze =>
    have hpress := ScrollEngine.press_ok h ⟨true, false, false, false⟩
    rw [ScrollEngine.press_holdToggle] at hpress
    simpa [serve, answered, doFrze, State.changeScroll] using hpress
  | thaw =>
    have hthaw : s.sce.thaw.Ok := by unfold ScrollEngine.thaw; split <;> exact h
    simpa [serve, answered, doThaw, State.changeScroll] using hthaw
  | rels =>
    have hrelease : s.sce.release.Ok := by unfold ScrollEngine.release; split <;> exact h
    simpa [serve, answered, doRels, State.changeScroll] using hrelease
  | jump k p =>
    simp only [serve, answered, doJump]
    (repeat' split) <;> exact h
  | parm n i v =>
    simp only [serve, answered, doParm]
    split
    · exact State.writeParam_ok h _ _
    · exact h
  | ecmt => exact (doEcmt_applyTook l tag s).ok h
  | qfrc el et => exact (doQfrc_applyTook l el et s).ok h
  | mode m =>
    simp only [serve, answered, doMode]
    (repeat' split)
    · exact h
    · exact h
    · exact h
    · exact State.changeMode_ok h _
    · exact h
  | _ => cases hb

theorem resetEngine_ok : ScrollEngine.reset.Ok := ⟨by decide, by decide, by decide, by decide⟩

theorem exec_sceOk {c : Instr} {s : State} (hh : s.handOk = true) (h : s.sce.Ok) (ht : s.tbp.ok)
    (hb : apart [.sce] (eventBlocks c) = false) : Ends (fun u => u.sce.Ok) (exec c s) := by
  cases c with
  | resetLine n => exact ends_finish resetEngine_ok
  | loadCompletion w image =>
    dsimp only [exec, execLoadCompletion]
    split
    · have hread : ({ s.reach w with mem := memoryAtLoad s.mem image } : State).sce.Ok := h
      exact ends_finish (State.leaveLoading_ok (State.takeImage_ok hread _))
    · exact ends_finish h
  | settingsLoadTimeout w =>
    dsimp only [exec, execSettingsLoadTimeout]
    have hreach : (s.reach w).sce.Ok := h
    split
    · exact ends_finish (State.leaveLoading_ok (State.takeDefaults_ok hreach))
    · exact ends_finish hreach
  | scrollStep => exact ends_finish (State.scrollStep_ok (s := s.scrollTickTaken) hh h ht)
  | copyCompletion l =>
    dsimp only [exec, execCopyCompletion]
    (repeat' split)
    · exact ends_finish ((State.copyDone_applyTook ..).ok h)
    · exact ends_finish (by simpa using h)
    · exact ends_finish h
  | queuePass => exact ends_finish ((State.pass_applyTook s.passTaken).ok h)
  | _ => cases hb

/-- What the engine's numbers are decided from within range: hand side, timebase and the engine's own. -/
def State.Driven (s : State) : Prop := s.handOk = true ∧ s.sce.Ok ∧ s.tbp.ok

theorem dependsOn_driven : DependsOn [.dsh, .ports, .msc, .sce, .tbp] State.Driven := by
  intro s t h ⟨hh, hs, ht⟩
  exact ⟨dependsOn_handOk s t (fun b hb => h b (by revert hb; simp; tauto)) hh,
    dependsOn_sceOk s t (fun b hb => h b (by revert hb; simp; tauto)) hs,
    dependsOn_timebaseOk s t (fun b hb => h b (by revert hb; simp; tauto)) ht⟩

theorem step_leads_sceOk : ∀ s t : State, s.Driven → step s = .next t → t.sce.Ok :=
  step_leads dependsOn_driven (by decide) dependsOn_sceOk (by decide) (fun _ h => h.2.1) (fun _ _ h => h)
    (fun l tag r _ _ hb h => serve_sceOk h.2.1 l tag r hb) (fun _ _ _ hb h => exec_sceOk h.1 h.2.1 h.2.2 hb)

end Sys2Proof.Machine

/-! PROOFS. The numbers of arbiter, edit engine, stager, outputs and links within their ranges, and every range together
(R51, R52, R55, R69, R130, R137, R144, R147, R155, R157, R171, R176). -/

namespace Sys2Proof.Machine

/-! ### Grants and staging triggers -/

/-- Of an arbiter only the grant differs, with a count that was held or starts a hold-over (R55, R59). -/
def GrantTook (a b : Arbiter) : Prop :=
  b = { a with holder := b.holder, inHoldOver := b.inHoldOver, count := b.count } ∧ b.count ≤ max a.count a.holdOverValue

/-- Geometry and sequence of a stager stand (R144, R147). -/
def GeometryKept (v w : Stager) : Prop := w.rows = v.rows ∧ w.eyeRow = v.eyeRow ∧ w.sequence = v.sequence

/-- What an event does at arbiter and stager where it writes no field of theirs: grants and staging triggers. -/
def Reported (s t : State) : Prop := GrantTook s.aua t.aua ∧ GeometryKept s.wst t.wst

theorem GrantTook.refl (a : Arbiter) : GrantTook a a := ⟨rfl, Nat.le_max_left _ _⟩

theorem Reported.of_same {s t : State} (ha : t.aua = s.aua) (hw : t.wst = s.wst) : Reported s t := by
  rw [Reported, ha, hw]
  exact ⟨.refl _, rfl, rfl, rfl⟩

theorem Reported.refl (s : State) : Reported s s := .of_same rfl rfl

theorem Reported.trans {s t u : State} (h : Reported s t) (k : Reported t u) : Reported s u := by
  obtain ⟨⟨ha, hc⟩, hr, he, hs⟩ := h
  obtain ⟨⟨ka, kc⟩, kr, ke, ks⟩ := k
  have hvalue : t.aua.holdOverValue = s.aua.holdOverValue := by rw [ha]
  refine ⟨⟨by rw [ka, ha], ?_⟩, kr.trans hr, ke.trans he, ks.trans hs⟩
  rw [hvalue] at kc
  omega

/-- Grants and triggers from a state whose arbiter and stager are those of another. -/
theorem Reported.after {s u t : State} (h : Reported u t) (ha : u.aua = s.aua) (hw : u.wst = s.wst) : Reported s t :=
  (Reported.of_same ha hw).trans h

/-- Grants and triggers up to a state whose arbiter and stager another keeps. -/
theorem Reported.ends_as {s t u : State} (h : Reported s t) (ha : u.aua = t.aua) (hw : u.wst = t.wst) : Reported s u :=
  h.trans (.of_same ha hw)

theorem State.trigger_reported (s : State) : Reported s s.trigger := by
  simp [Reported, GeometryKept, GrantTook.refl]

theorem State.publishSince_reported (s : State) (e : ScrollEngine) : Reported s (s.publishSince e) := by
  unfold State.publishSince
  split
  · exact .refl s
  · exact s.trigger_reported

theorem State.takeGrant_reported (s : State) {g : Grant} (h : g.count ≤ max s.aua.count s.aua.holdOverValue) :
    Reported s (s.takeGrant g) := by
  have hset : Reported s { s with aua := { s.aua with holder := g.holder, inHoldOver := g.inHoldOver, count := g.count } } :=
    ⟨⟨rfl, h⟩, rfl, rfl, rfl⟩
  unfold State.takeGrant
  dsimp only
  split
  · exact hset
  · exact hset.trans (((State.trigger_reported _).after rfl rfl))

theorem State.grant_count (s : State) : s.grant.count ≤ max s.aua.count s.aua.holdOverValue := by
  unfold State.grant
  split
  · exact Nat.zero_le _
  · split
    · exact Nat.zero_le _
    · split
      · exact Nat.zero_le _
      · split
        · split
          · unfold State.grantActive
            split <;> exact Nat.zero_le _
          · unfold State.grantInactive
            split
            · exact Nat.zero_le _
            · dsimp only
              split
              · exact Nat.le_max_left _ _
              · exact Nat.le_max_right _ _
        · exact Nat.zero_le _

theorem State.regrant_reported (s : State) : Reported s s.regrant := s.takeGrant_reported s.grant_count

theorem State.holdOverTick_reported (s : State) : Reported s s.holdOverTick := by
  unfold State.holdOverTick
  split
  · exact s.takeGrant_reported (Nat.zero_le _)
  · exact ⟨⟨rfl, by show s.aua.count - 1 ≤ _; omega⟩, rfl, rfl, rfl⟩

theorem State.changePort_reported (s : State) (n : Fin 4) (p : HandPort) : Reported s (s.changePort n p) := by
  unfold State.changePort
  split
  · exact .of_same rfl rfl
  · exact (State.regrant_reported _).after rfl rfl

theorem State.takePort_reported (s : State) (n : Fin 4) (p : HandPort) : Reported s (s.takePort n p) := by
  unfold State.takePort
  dsimp only
  split
  · exact s.changePort_reported n p
  · exact (State.changePort_reported _ n p).after rfl rfl

theorem State.clearLatches_reported (s : State) : Reported s s.clearLatches := by
  rcases s.clearLatches_cases with ⟨hc, -⟩ | ⟨hc, -⟩ <;> rw [hc]
  · exact .of_same rfl rfl
  · exact (State.regrant_reported _).after rfl rfl

theorem State.scrollStep_reported (s : State) : Reported s s.scrollStep :=
  (State.publishSince_reported s.takeButtons.stepMove s.sce).after (by simp) (by simp)

theorem State.takeApply_reported (s : State) (r : ContentReport) : Reported s (s.takeApply r) :=
  (State.trigger_reported _).after (s := s) (by simp) (by simp) |>.trans (State.publishSince_reported _ _)

theorem State.takeClear_reported (s : State) : Reported s s.takeClear := by
  have hpublished := ((State.trigger_reported (State.anchorEmptied { s with sce := s.sce.clearShow } s.sce)).after (s := s)
    (by simp) (by simp)).trans (State.publishSince_reported _ s.sce)
  unfold State.takeClear State.consoleStopped
  dsimp only
  split
  · exact hpublished
  · exact hpublished.trans (State.regrant_reported _)

theorem State.applyEntry_reported (s : State) (e : Entry) : Reported s (s.applyEntry e) := by
  have htake := State.takeApply_reported
    (({ s with scs := s.scs.applied e.edit e.lids } : State).raiseCommit .commitDone e.link e.tag none)
    (s.scs.report e.edit e.lids)
  exact (htake.after (s := s) (by simp) (by simp)).ends_as (by simp [State.applyEntry, State.takeReport, Store.report])
    (by simp [State.applyEntry, State.takeReport, Store.report])

theorem State.pass_reported (s : State) : Reported s s.pass := by
  have hends := s.pass_ends
  generalize s.pass = t at hends
  cases hends with
  | kept u q hu =>
    have haua : u.aua = s.aua := hu .aua (by decide)
    have hwst : u.wst = s.wst := hu .wst (by decide)
    exact .of_same (by simpa using haua) (by simpa using hwst)
  | removed u before before' after e cause detail hu =>
    have haua : u.aua = s.aua := hu .aua (by decide)
    have hwst : u.wst = s.wst := hu .wst (by decide)
    exact .of_same (by simpa using haua) (by simpa using hwst)
  | applied u before before' after e hu =>
    have haua : u.aua = s.aua := hu .aua (by decide)
    have hwst : u.wst = s.wst := hu .wst (by decide)
    exact (State.applyEntry_reported _ _).after (by simpa using haua) (by simpa using hwst)

theorem State.copyDone_reported (s : State) (l : Link) (page : Page) (e : Entry) : Reported s (s.copyDone l page e) := by
  have haua : (s.pageCopied l page e).aua = s.aua := s.pageCopied_sameBut l page e .aua (by decide)
  have hwst : (s.pageCopied l page e).wst = s.wst := s.pageCopied_sameBut l page e .wst (by decide)
  rw [State.copyDone_eq]
  split
  · exact .of_same (by simpa using haua) (by simpa using hwst)
  · exact (State.pass_reported _).after (by simpa using haua) (by simpa using hwst)

theorem State.startCopy_reported (s : State) (l : Link) (tag : Byte) (e : EditParams) (n : Nat) (page : Page)
    (st : Store) (lids : List Nat) : Reported s (s.startCopy l tag e n page st lids) := by
  have haccept : Reported s (s.acceptCommit l tag e n page st lids) :=
    .of_same (s.acceptCommit_sameBut l tag e n page st lids .aua (by decide))
      (s.acceptCommit_sameBut l tag e n page st lids .wst (by decide))
  unfold State.startCopy
  dsimp only
  split
  · exact haccept.trans (State.copyDone_reported ..)
  · exact haccept

theorem doEcmt_reported (l : Link) (tag : Byte) (s : State) : Reported s (doEcmt l tag s).1 := by
  unfold doEcmt
  split
  · split
    · exact .of_same rfl rfl
    · split
      · exact .of_same rfl rfl
      · exact s.startCopy_reported ..
  · exact .of_same rfl rfl

theorem doQfrc_reported (l : Link) (el et : Nat) (s : State) : Reported s (doQfrc l el et s).1 := by
  have hforce (e : Entry) : Reported s (s.forceEntry l e).1 := by
    unfold State.forceEntry
    dsimp only
    split
    · exact .of_same rfl rfl
    · split
      · exact .of_same (by simp [refuse]) (by simp [refuse])
      · exact (State.applyEntry_reported _ _).after rfl rfl
  unfold doQfrc
  split
  · exact .refl s
  · split
    · exact .of_same rfl rfl
    · split
      · exact hforce _
      · exact .of_same rfl rfl

theorem State.stopPlayer_reported (s : State) : Reported s s.stopPlayer := (State.clearLatches_reported _).after rfl rfl

theorem State.haltPlayer_reported (s : State) : Reported s s.haltPlayer := by
  unfold State.haltPlayer
  split
  · exact s.stopPlayer_reported
  · exact .refl s

theorem State.runPlayer_reported (s : State) (l : Link) (loop : Option Bool) : Reported s (s.runPlayer l loop).1 := by
  unfold State.runPlayer
  split
  · split
    · exact .of_same rfl rfl
    · exact s.haltPlayer_reported.ends_as rfl rfl
  · exact s.haltPlayer_reported

theorem State.playerTick_reported (s : State) : Reported s s.playerTick := by
  unfold State.playerTick
  split
  · exact s.stopPlayer_reported
  · exact (s.takePort_reported _ _).ends_as rfl rfl

theorem State.modePorts_reported (s : State) (a b : Mode) : Reported s (s.modePorts a b) := by
  unfold State.modePorts
  split
  · exact s.stopPlayer_reported
  · exact .refl s

theorem State.modeGrant_reported (s : State) (a b : Mode) : Reported s (s.modeGrant a b) := by
  unfold State.modeGrant
  split
  · exact .refl s
  · exact s.regrant_reported

theorem State.changeMode_reported (s : State) (m : Mode) : Reported s (s.changeMode m) := by
  unfold State.changeMode
  dsimp only
  have hports := (State.modePorts_reported { s with msc := { s.msc with mode := m } } s.msc.mode m).after (s := s) rfl rfl
  generalize State.modePorts { s with msc := { s.msc with mode := m } } s.msc.mode m = u at hports
  refine hports.trans ?_
  have hgrant := ((u.modeRest m).modeGrant_reported s.msc.mode m).after (s := u) (by simp) (by simp)
  generalize (u.modeRest m).modeGrant s.msc.mode m = w at hgrant
  exact hgrant.trans ((State.trigger_reported _).after (by simp) (by simp))

theorem State.leaveLoading_reported (s : State) : Reported s s.leaveLoading := by
  unfold State.leaveLoading
  split
  · exact s.changeMode_reported _
  · exact .refl s

theorem State.changeScroll_reported (s : State) (e : ScrollEngine) : Reported s (s.changeScroll e).1 :=
  (State.publishSince_reported _ _).after rfl rfl

theorem doMspd_reported (v : Int) (s : State) : Reported s (doMspd v s).1 := by
  unfold doMspd State.setManualSpeed
  dsimp only
  split
  · exact .of_same rfl rfl
  · exact (State.regrant_reported _).after rfl rfl

theorem doAmod_reported (m : Nat) (c : Option Nat) (s : State) : Reported s (doAmod m c s).1 := by
  have hc : Reported s (s.setConstant? c) := .of_same (by simp) (by simp)
  unfold doAmod
  split
  · exact .refl s
  · dsimp only [State.setAutoMode]
    split
    · exact hc.ends_as rfl rfl
    · exact hc.trans ((State.regrant_reported _).after rfl rfl)

theorem doMode_reported (l : Link) (m : Nat) (s : State) : Reported s (doMode l m s).1 := by
  unfold doMode
  (repeat' split)
  · exact .refl s
  · exact .refl s
  · exact .refl s
  · exact s.changeMode_reported _
  · exact .of_same rfl rfl

theorem State.portsTaken_reported (s : State) (v : Settings) : Reported s (s.portsTaken v) := by
  unfold State.portsTaken State.setPortEnable
  exact (((s.takePort_reported _ _).trans (State.takePort_reported _ _ _)).trans (State.takePort_reported _ _ _)).trans
    (State.takePort_reported _ _ _)

/-! ### Arbiter and stager in range -/

theorem Arbiter.ok_iff (a : Arbiter) : a.ok = true ↔
    a.console.ok = true ∧ (∀ n, (a.hand.get n).ok = true) ∧ a.auto.ok = true ∧ a.threshold ≤ 15 ∧ a.count ≤ 255 ∧
      a.holdOverValue ≤ 255 := by
  simp only [Arbiter.ok, Bool.and_eq_true, decide_eq_true_eq, Four.all_toList, and_assoc]

theorem Stager.ok_iff (w : Stager) : w.ok = true ↔
    1 ≤ w.rows ∧ w.rows ≤ 24 ∧ w.eyeRow < w.rows ∧ w.sequence ≤ 4294967295 := by
  simp only [Stager.ok, Bool.and_eq_true, decide_eq_true_eq, and_assoc]
  rfl

/-- The numbers of arbiter and stager within their ranges (R51, R52, R55, R69, R144, R147). -/
def State.DeskOk (s : State) : Prop := s.aua.ok = true ∧ s.wst.ok = true

theorem Reported.desk {s t : State} (h : Reported s t) (hs : s.DeskOk) : t.DeskOk := by
  obtain ⟨⟨ha, hc⟩, hr, he, hq⟩ := h
  obtain ⟨haua, hwst⟩ := hs
  refine ⟨?_, ?_⟩
  · rw [Arbiter.ok_iff] at haua ⊢
    obtain ⟨h1, h2, h3, h4, h5, h6⟩ := haua
    rw [ha]
    exact ⟨h1, h2, h3, h4, by show t.aua.count ≤ 255; omega, h6⟩
  · rw [Stager.ok_iff] at hwst ⊢
    rwa [hr, he, hq]

theorem dependsOn_deskOk : DependsOn [.aua, .wst] State.DeskOk := by
  intro s t h hs
  have haua : t.aua = s.aua := h .aua (by simp)
  have hwst : t.wst = s.wst := h .wst (by simp)
  unfold State.DeskOk
  rwa [haua, hwst]

/-- An arbiter written in range, and the grant re-evaluated. -/
theorem State.arbiterWrite_desk {s : State} (h : s.DeskOk) {a : Arbiter} (ha : a.ok = true) :
    (State.regrant { s with aua := a }).DeskOk :=
  (State.regrant_reported _).desk ⟨ha, h.2⟩

theorem Arbiter.setEntry_ok {a : Arbiter} (h : a.ok = true) (src : Source) {e : SourceEntry} (he : e.ok = true) :
    (a.setEntry src e).ok = true := by
  rw [Arbiter.ok_iff] at h ⊢
  obtain ⟨hc, hh, ha, hrest⟩ := h
  cases src with
  | console => exact ⟨he, hh, ha, hrest⟩
  | hand n =>
    refine ⟨hc, fun m => ?_, ha, hrest⟩
    simp only [Arbiter.setEntry, Four.get_set]
    split
    · exact he
    · exact hh m
  | auto => exact ⟨hc, hh, he, hrest⟩

theorem State.setGeometry_desk {s : State} (h : s.DeskOk) {rows eye : Nat} (hr : 1 ≤ rows) (hr' : rows ≤ 24)
    (he : eye < rows) : (s.setGeometry rows eye).DeskOk := by
  unfold State.setGeometry
  split
  · exact h
  · refine (State.trigger_reported _).desk ⟨h.1, ?_⟩
    have hseq := ((Stager.ok_iff _).1 h.2).2.2.2
    exact (Stager.ok_iff _).2 ⟨hr, hr', he, hseq⟩

theorem State.setArbiter_desk {s : State} (h : s.DeskOk) {v : Settings} (hv : v.inRange = true) :
    (s.setArbiter v).DeskOk := by
  have hwrite : ({ s.aua with
      console := v.console
      hand := v.hand
      auto := v.auto
      threshold := v.threshold
      holdOverValue := v.holdOverValue } : Arbiter).ok = true := by
    have hcount := ((Arbiter.ok_iff _).1 h.1).2.2.2.2.1
    simp only [Settings.inRange, Bool.and_eq_true, decide_eq_true_eq, Four.all_toList, and_assoc] at hv
    obtain ⟨-, hc, hh, ha, ht, ho, -⟩ := hv
    exact (Arbiter.ok_iff _).2 ⟨hc, hh, ha, ht, hcount, ho⟩
  unfold State.setArbiter
  dsimp only
  split
  · exact ⟨hwrite, h.2⟩
  · exact State.arbiterWrite_desk h hwrite

theorem State.takeSettings_desk {s : State} (h : s.DeskOk) {v : Settings} (hv : v.inRange = true) :
    (s.takeSettings v).DeskOk := by
  obtain ⟨-, -, ⟨hr, hr', he⟩, -⟩ := Settings.inRange_numbers hv
  have hports := (s.portsTaken_reported v).desk h
  have hshapers : (s.shapersTaken v).DeskOk := by
    unfold State.shapersTaken
    generalize s.portsTaken v = u at hports
    exact hports
  have harbiter : (s.arbiterTaken v).DeskOk := State.setArbiter_desk hshapers hv
  unfold State.takeSettings
  dsimp only
  rw [← State.portsTaken, ← State.shapersTaken, ← State.arbiterTaken]
  generalize s.arbiterTaken v = u at harbiter
  have htuned : (((u.setSlew v.accel v.decel).setPace v.paceMin v.paceMax).setConstant v.constant).DeskOk := harbiter
  exact dependsOn_deskOk _ _ (fun b hb => by
    rcases List.mem_cons.1 hb with rfl | hb
    · simp [Block.same]
    · rw [List.mem_singleton.1 hb]; simp [Block.same]) (State.setGeometry_desk htuned hr hr' he)

theorem State.takeDefaults_desk {s : State} (h : s.DeskOk) : s.takeDefaults.DeskOk := by
  simpa [State.takeDefaults, State.DeskOk] using State.takeSettings_desk h defaults_inRange

theorem State.takeImage_desk {s : State} (h : s.DeskOk) (image : List Word16) : (s.takeImage image).DeskOk := by
  unfold State.takeImage
  split
  · simpa [State.DeskOk] using State.takeSettings_desk h (settingsOf_inRange image)
  · exact State.takeDefaults_desk h

theorem State.stagingDone_desk {s : State} (h : s.DeskOk) (f : Frame) : (s.stagingDone f).DeskOk := by
  obtain ⟨hr, hr', he, hq⟩ := (Stager.ok_iff _).1 h.2
  have hseq : nextSequence s.wst.sequence ≤ 4294967295 := by
    unfold nextSequence Config.clockMax
    split <;> omega
  unfold State.stagingDone
  dsimp only
  split <;> exact ⟨h.1, (Stager.ok_iff _).2 ⟨hr, hr', he, hseq⟩⟩

theorem State.writeParam_desk {s : State} (h : s.DeskOk) (p : Param) (v : Nat) : (s.writeParam p v).1.DeskOk := by
  obtain ⟨hr, hr', he, -⟩ := (Stager.ok_iff _).1 h.2
  cases p with
  | portEnable n => exact (s.takePort_reported n _).desk h
  | holdOver =>
    obtain ⟨hc, hh, ha, ht, hcount, -⟩ := (Arbiter.ok_iff _).1 h.1
    exact ⟨(Arbiter.ok_iff _).2 ⟨hc, hh, ha, ht, hcount, Nat.min_le_right _ _⟩, h.2⟩
  | windowRows =>
    obtain ⟨hlo, hhi⟩ := clampTo_range (lo := 1) (hi := 24) (by decide) v
    exact State.setGeometry_desk h hlo hhi (by omega)
  | eyeRow => exact State.setGeometry_desk h hr hr' (by omega)
  | centre n | deadband n | reverse n => simp only [State.writeParam, State.tune]; split <;> exact h
  | frameRate | outFraming o =>
    simp only [State.writeParam, State.writeOutput]
    split <;> simpa [State.DeskOk] using h
  | paceMin => simp only [State.writeParam, State.writePaceMin]; split <;> exact h
  | accel | decel | autoConstant | paceMax | source | threshold | lockEntry => exact h
  | _ =>
    simp only [State.writeParam, State.writeOutput]
    simpa [State.DeskOk] using h

theorem serve_desk {s : State} (h : s.DeskOk) (l : Link) (tag : Byte) (r : Request)
    (hb : apart [.aua, .wst] (ownerBlocks r) = false) : (serve l tag r s).1.DeskOk := by
  have harbiter := (Arbiter.ok_iff _).1 h.1
  have htaken (p : Nat) (on : Bool) : (SourceEntry.mk on (min p 15)).ok = true := decide_eq_true (Nat.min_le_right _ _)
  cases r with
  | clrs => exact ((State.takeClear_reported _).after rfl rfl).desk h
  | mspd v => exact (doMspd_reported v s).desk h
  | frze | thaw | rels => exact (s.changeScroll_reported _).desk h
  | lock n =>
    simp only [serve, answered, doLock]
    split
    · exact h
    · exact State.arbiterWrite_desk h ((Arbiter.ok_iff _).2 harbiter)
  | free => exact State.arbiterWrite_desk h ((Arbiter.ok_iff _).2 harbiter)
  | srcs n on p =>
    simp only [serve, answered, doSrcs]
    split
    · exact h
    · exact State.arbiterWrite_desk h (Arbiter.setEntry_ok h.1 _ (htaken p on))
  | thrs v =>
    obtain ⟨hc, hh, ha, -, hcount, ho⟩ := harbiter
    exact State.arbiterWrite_desk h ((Arbiter.ok_iff _).2 ⟨hc, hh, ha, Nat.min_le_right _ _, hcount, ho⟩)
  | parm n i v =>
    simp only [serve, answered, doParm]
    split
    · exact State.writeParam_desk h _ _
    · exact h
  | amod m c => exact (doAmod_reported m c s).desk h
  | ecmt => exact (doEcmt_reported l tag s).desk h
  | qfrc el et => exact (doQfrc_reported l el et s).desk h
  | mode m => exact (doMode_reported l m s).desk h
  | dgrn a loop =>
    simp only [serve, answered, doDgrn]
    (repeat' split)
    · exact h
    · exact (s.runPlayer_reported ..).desk h
    · exact h
    · exact (s.runPlayer_reported ..).desk h
    · exact h
  | _ => cases hb

theorem Arbiter.reset_ok : Arbiter.reset.ok = true := by decide

theorem Stager.reset_ok : Stager.reset.ok = true := by decide

theorem exec_desk {c : Instr} {s : State} (h : s.DeskOk) (hb : apart [.aua, .wst] (eventBlocks c) = false) :
    Ends State.DeskOk (exec c s) := by
  cases c with
  | resetLine n => exact ends_finish ⟨Arbiter.reset_ok, Stager.reset_ok⟩
  | loadCompletion w image =>
    dsimp only [exec, execLoadCompletion]
    split
    · have hread : ({ s.reach w with mem := memoryAtLoad s.mem image } : State).DeskOk := h
      exact ends_finish ((State.leaveLoading_reported _).desk (State.takeImage_desk hread _))
    · exact ends_finish h
  | settingsLoadTimeout w =>
    dsimp only [exec, execSettingsLoadTimeout]
    have hreach : (s.reach w).DeskOk := h
    split
    · exact ends_finish ((State.leaveLoading_reported _).desk (State.takeDefaults_desk hreach))
    · exact ends_finish hreach
  | scrollStep => exact ends_finish ((State.scrollStep_reported _).desk (s := s.scrollTickTaken) h)
  | arbiterTick =>
    dsimp only [exec, execArbiterTick]
    split
    · exact ends_finish ((State.holdOverTick_reported _).desk (s := s.arbiterTickTaken) h)
    · exact ends_finish h
  | holdOverExpiry =>
    dsimp only [exec, execHoldOverExpiry]
    split
    · exact ends_finish ((State.holdOverTick_reported _).desk (s := s.arbiterTickTaken) h)
    · exact ends_finish h
  | portTick n => exact ends_finish ((State.takePort_reported _ _ _).desk (s := s.portTickTaken n) h)
  | portSilenceExpiry n =>
    dsimp only [exec, execPortSilenceExpiry]
    split
    · exact ends_finish ((State.takePort_reported _ _ _).desk (s := s.portTickTaken n) h)
    · exact ends_finish h
  | handWord n w =>
    dsimp only [exec, execHandWord]
    (repeat' split)
    · exact ends_finish h
    · exact ends_finish ((s.takePort_reported _ _).desk h)
    · exact ends_finish ((s.takePort_reported _ _).desk h)
  | playerTick =>
    dsimp only [exec, execPlayerTick]
    split
    · exact ends_finish ((State.playerTick_reported _).desk (s := s.playerTickTaken) h)
    · exact ends_finish h
  | copyCompletion l =>
    dsimp only [exec, execCopyCompletion]
    (repeat' split)
    · exact ends_finish ((s.copyDone_reported _ _ _).desk h)
    · exact ends_finish (by simpa [State.DeskOk] using h)
    · exact ends_finish h
  | queuePass => exact ends_finish ((State.pass_reported _).desk (s := s.passTaken) h)
  | stagingCompletion =>
    dsimp only [exec, execStagingCompletion]
    split
    · exact ends_finish (State.stagingDone_desk h _)
    · exact ends_finish h
  | _ => cases hb

theorem step_keeps_deskOk : ∀ s t : State, s.DeskOk → step s = .next t → t.DeskOk :=
  step_keeps dependsOn_deskOk (by decide) (fun _ _ h => h) (fun l tag r _ _ hb h => serve_desk h l tag r hb)
    (fun _ _ _ hb h => exec_desk h hb)

end Sys2Proof.Machine

/-! PROOFS. Guards and lock table, outputs and link counters within their ranges, and every range together (R130, R137,
R155, R157, R171, R176). -/

namespace Sys2Proof.Machine

/-! ### Guards and lock table (R130, R137) -/

/-- Lock table and guard sizes stand (R130, R137). -/
def LimitsKept (e f : EditEngine) : Prop :=
  f.locks = e.locks ∧ f.guardAbove = e.guardAbove ∧ f.guardBelow = e.guardBelow

theorem LimitsKept.refl (e : EditEngine) : LimitsKept e e := ⟨rfl, rfl, rfl⟩

theorem LimitsKept.trans {e f g : EditEngine} (h : LimitsKept e f) (k : LimitsKept f g) : LimitsKept e g :=
  ⟨k.1.trans h.1, k.2.1.trans h.2.1, k.2.2.trans h.2.2⟩

theorem PassesOnly.limits {e f : EditEngine} (h : PassesOnly e f) : LimitsKept e f := by
  rw [h]; exact ⟨rfl, rfl, rfl⟩

/-- Passes due on top of an engine whose limits are those of another. -/
theorem PassesOnly.limits_after {d e f : EditEngine} (h : PassesOnly e f) (k : LimitsKept d e) : LimitsKept d f :=
  k.trans h.limits

theorem State.setSlot_limits (s : State) (l : Link) (x : EditSlot) : LimitsKept s.ede (s.setSlot l x).ede := by
  cases l <;> exact ⟨rfl, rfl, rfl⟩

theorem State.pass_limits (s : State) : LimitsKept s.ede s.pass.ede := by
  have hends := s.pass_ends
  generalize s.pass = t at hends
  have hqueue {u : State} (hu : Noted s u) (q : List Entry) : LimitsKept s.ede (u.setQueue q).ede := by
    have hede : u.ede = s.ede := hu .ede (by decide)
    rw [← hede]; exact ⟨rfl, rfl, rfl⟩
  cases hends with
  | kept u q hu => exact hqueue hu _
  | removed u before before' after e cause detail hu =>
    refine (State.dropEntry_passes _ _ _).limits_after ((hqueue hu ([] ++ before' ++ after)).trans ?_)
    exact ⟨rfl, rfl, rfl⟩
  | applied u before before' after e hu => exact (State.applyEntry_passes _ _).limits_after (hqueue hu _)

theorem State.copyDone_limits (s : State) (l : Link) (page : Page) (e : Entry) :
    LimitsKept s.ede (s.copyDone l page e).ede := by
  have hpage : LimitsKept s.ede (s.pageCopied l page e).ede := by
    unfold State.pageCopied
    exact State.setSlot_limits { s with scs := s.scs.writePage e.lids page } l _
  rw [State.copyDone_eq]
  split
  · exact (State.dropEntry_passes _ _ _).limits_after (hpage.trans ⟨rfl, rfl, rfl⟩)
  · exact (hpage.trans ⟨rfl, rfl, rfl⟩).trans (State.pass_limits _)

theorem State.startCopy_limits (s : State) (l : Link) (tag : Byte) (e : EditParams) (n : Nat) (page : Page)
    (st : Store) (lids : List Nat) : LimitsKept s.ede (s.startCopy l tag e n page st lids).ede := by
  have haccept : LimitsKept s.ede (s.acceptCommit l tag e n page st lids).ede := by
    unfold State.acceptCommit
    cases l <;> exact ⟨rfl, rfl, rfl⟩
  unfold State.startCopy
  dsimp only
  split
  · exact haccept.trans (State.copyDone_limits ..)
  · exact haccept

theorem State.cancelEntry_limits (s : State) (e : Entry) : LimitsKept s.ede (s.cancelEntry e).1.ede := by
  unfold State.cancelEntry
  split
  · exact ⟨rfl, rfl, rfl⟩
  · exact (State.dropEntry_passes _ _ _).limits_after ⟨rfl, rfl, rfl⟩

theorem State.forceEntry_limits (s : State) (l : Link) (e : Entry) : LimitsKept s.ede (s.forceEntry l e).1.ede := by
  unfold State.forceEntry
  dsimp only
  split
  · exact ⟨rfl, rfl, rfl⟩
  · split
    · rw [refuse, State.recordRefusal_ede]
      exact (State.dropEntry_passes _ _ _).limits_after ⟨rfl, rfl, rfl⟩
    · exact (State.applyEntry_passes _ _).limits_after ⟨rfl, rfl, rfl⟩

/-- The requests that write guard sizes or lock table (R130, R138). -/
def limitRequest : Request → Bool
  | .parm .. | .slck .. => true
  | _ => false

/-- Every other owner leaves guard sizes and lock table as they were. -/
theorem serve_limits {r : Request} (hr : limitRequest r = false) (l : Link) (tag : Byte) (s : State) :
    LimitsKept s.ede (serve l tag r s).1.ede := by
  by_cases hb : .ede ∉ ownerBlocks r
  · have hede : (serve l tag r s).1.ede = s.ede := serve_sameBut l tag r s .ede hb
    rw [hede]; exact .refl _
  cases r with
  | rdln lid c =>
    simp only [serve, doRdln]
    split
    · exact ⟨rfl, rfl, rfl⟩
    · simpa [State.startRead] using LimitsKept.refl s.ede
  | clrs =>
    have hclear := (State.takeClear_passes { s with scs := Store.empty, ede := s.ede.clearShow }).limits
    exact LimitsKept.trans (f := s.ede.clearShow) ⟨rfl, rfl, rfl⟩ hclear
  | jump k p => simp only [serve, answered, doJump]; (repeat' split) <;> exact ⟨rfl, rfl, rfl⟩
  | cntr p => simp only [serve, answered, doCntr]; (repeat' split) <;> exact ⟨rfl, rfl, rfl⟩
  | eopn e n =>
    simp only [serve, answered, doEopn]
    (repeat' split)
    · exact .refl _
    · exact .refl _
    · exact s.setSlot_limits l _
    · exact .refl _
  | elin k st m c tx =>
    simp only [serve, answered, doElin]
    (repeat' split)
    · exact s.setSlot_limits l _
    · exact .refl _
    · exact .refl _
    · exact ⟨rfl, rfl, rfl⟩
  | eabn =>
    simp only [serve, answered, doEabn]
    split
    · exact s.setSlot_limits l _
    · exact .refl _
    · exact .refl _
  | ecmt =>
    simp only [serve, answered, doEcmt]
    split
    · split
      · exact ⟨rfl, rfl, rfl⟩
      · split
        · exact ⟨rfl, rfl, rfl⟩
        · exact s.startCopy_limits ..
    · exact ⟨rfl, rfl, rfl⟩
  | qcan el et =>
    simp only [serve, answered, doQcan]
    (repeat' split)
    · exact .refl _
    · exact .refl _
    · exact ⟨rfl, rfl, rfl⟩
    · exact s.cancelEntry_limits _
  | qfrc el et =>
    simp only [serve, answered, doQfrc]
    (repeat' split)
    · exact .refl _
    · exact ⟨rfl, rfl, rfl⟩
    · exact s.forceEntry_limits _ _
    · exact ⟨rfl, rfl, rfl⟩
  | tgts n t => simp only [serve, answered, doTgts]; (repeat' split) <;> exact ⟨rfl, rfl, rfl⟩
  | mode m =>
    simp only [serve, answered, doMode]
    (repeat' split)
    · exact .refl _
    · exact .refl _
    · exact .refl _
    · rw [State.changeMode_ede]; exact ⟨rfl, rfl, rfl⟩
    · exact ⟨rfl, rfl, rfl⟩
  | dgrn a loop =>
    have hrun (loop : Option Bool) : LimitsKept s.ede (s.runPlayer l loop).1.ede := by
      unfold State.runPlayer
      split
      · split
        · exact ⟨rfl, rfl, rfl⟩
        · simpa using LimitsKept.refl s.ede
      · simpa using LimitsKept.refl s.ede
    simp only [serve, answered, doDgrn]
    (repeat' split)
    · exact .refl _
    · exact hrun _
    · exact .refl _
    · exact hrun _
    · exact .refl _
  | parm | slck => cases hr
  | _ => simp [ownerBlocks] at hb

theorem EditEngine.ok_iff (e : EditEngine) : e.ok = true ↔
    e.guardAbove ≤ 16 ∧ e.guardBelow ≤ 32 ∧ e.locks.length = 8 ∧ ∀ x ∈ e.locks, x.ok = true := by
  simp only [EditEngine.ok, Bool.and_eq_true, decide_eq_true_eq, List.all_eq_true, and_assoc]

theorem LimitsKept.ok {e f : EditEngine} (h : LimitsKept e f) (he : e.ok = true) : f.ok = true := by
  obtain ⟨hlocks, habove, hbelow⟩ := h
  rw [EditEngine.ok_iff] at he ⊢
  rwa [hlocks, habove, hbelow]

theorem dependsOn_edeOk : DependsOn [.ede] (fun s => s.ede.ok = true) := by
  intro s t h hs
  have hede : t.ede = s.ede := h .ede (by simp)
  rwa [hede]

theorem State.setGuards_ok {s : State} (h : s.ede.ok = true) {a b : Nat} (ha : a ≤ 16) (hb : b ≤ 32) :
    (s.setGuards a b).ede.ok = true := by
  unfold State.setGuards
  split
  · exact h
  · exact (EditEngine.ok_iff _).2 ⟨ha, hb, ((EditEngine.ok_iff _).1 h).2.2⟩

theorem State.writeParam_edeOk {s : State} (h : s.ede.ok = true) (p : Param) (v : Nat) :
    (s.writeParam p v).1.ede.ok = true := by
  obtain ⟨ha, hb, -⟩ := (EditEngine.ok_iff _).1 h
  cases p with
  | guardAbove => exact State.setGuards_ok h (Nat.min_le_right _ _) hb
  | guardBelow => exact State.setGuards_ok h ha (Nat.min_le_right _ _)
  | centre n | deadband n | reverse n => simp only [State.writeParam, State.tune]; split <;> exact h
  | frameRate | outFraming o => simp only [State.writeParam, State.writeOutput]; split <;> simpa using h
  | paceMin => simp only [State.writeParam, State.writePaceMin]; split <;> exact h
  | accel | decel | holdOver | autoConstant | paceMax | source | threshold | lockEntry => exact h
  | _ =>
    simp only [State.writeParam, State.writeGeometry, State.writeOutput]
    simpa using h

theorem doSlck_edeOk {s : State} (h : s.ede.ok = true) (l : Link) (k : Nat) (e : LockEntry) :
    (doSlck l k e s).1.ede.ok = true := by
  obtain ⟨ha, hb, hlen, hall⟩ := (EditEngine.ok_iff _).1 h
  unfold doSlck
  split
  · exact h
  · split
    · next hrange =>
      split
      · exact h
      · have he : e.ok = true := by
          simp only [storyInRange, Bool.and_eq_true, decide_eq_true_eq] at hrange
          obtain ⟨⟨⟨hlow, -⟩, -, hhigh⟩, hle⟩ := hrange
          simp [LockEntry.ok, hlow, hle, hhigh]
        refine (EditEngine.ok_iff _).2 ⟨ha, hb, by simpa using hlen, fun x hx => ?_⟩
        rcases List.mem_or_eq_of_mem_set hx with hx | rfl
        exacts [hall x hx, he]
    · exact h

theorem State.takeSettings_edeOk {s : State} (h : s.ede.ok = true) {v : Settings} (hv : v.inRange = true) :
    (s.takeSettings v).ede.ok = true := by
  have harbiter : (s.arbiterTaken v).ede = s.ede := by simp [State.arbiterTaken, State.shapersTaken, State.portsTaken]
  have hguards : v.guardAbove ≤ 16 ∧ v.guardBelow ≤ 32 := by
    simp only [Settings.inRange, Bool.and_eq_true, decide_eq_true_eq] at hv
    exact ⟨hv.1.2, hv.2⟩
  unfold State.takeSettings
  dsimp only
  rw [← State.portsTaken, ← State.shapersTaken, ← State.arbiterTaken]
  rw [← harbiter] at h
  generalize s.arbiterTaken v = u at h
  have hset := State.setGuards_ok (s := (((u.setSlew v.accel v.decel).setPace v.paceMin v.paceMax).setConstant
    v.constant).setGeometry v.rows v.eyeRow) (by simpa using h) hguards.1 hguards.2
  simpa using hset

theorem State.takeDefaults_edeOk {s : State} (h : s.ede.ok = true) : s.takeDefaults.ede.ok = true := by
  simpa [State.takeDefaults] using State.takeSettings_edeOk h defaults_inRange

theorem State.takeImage_edeOk {s : State} (h : s.ede.ok = true) (image : List Word16) :
    (s.takeImage image).ede.ok = true := by
  unfold State.takeImage
  split
  · simpa using State.takeSettings_edeOk h (settingsOf_inRange image)
  · exact State.takeDefaults_edeOk h

theorem State.leaveLoading_edeOk {s : State} (h : s.ede.ok = true) : s.leaveLoading.ede.ok = true := by
  unfold State.leaveLoading
  split
  · rw [State.changeMode_ede]; exact h
  · exact h

theorem EditEngine.reset_ok : EditEngine.reset.ok = true := by decide

theorem exec_edeOk {c : Instr} {s : State} (h : s.ede.ok = true) (hb : apart [.ede] (eventBlocks c) = false) :
    Ends (fun u => u.ede.ok = true) (exec c s) := by
  cases c with
  | resetLine n => exact ends_finish EditEngine.reset_ok
  | loadCompletion w image =>
    dsimp only [exec, execLoadCompletion]
    split
    · have hread : ({ s.reach w with mem := memoryAtLoad s.mem image } : State).ede.ok = true := h
      exact ends_finish (State.leaveLoading_edeOk (State.takeImage_edeOk hread _))
    · exact ends_finish h
  | settingsLoadTimeout w =>
    dsimp only [exec, execSettingsLoadTimeout]
    split
    · exact ends_finish (State.leaveLoading_edeOk (State.takeDefaults_edeOk (s := s.reach w) h))
    · exact ends_finish h
  | scrollStep => exact ends_finish (s.scrollTickTaken.scrollStep_passes.limits.ok h)
  | copyCompletion l =>
    dsimp only [exec, execCopyCompletion]
    (repeat' split)
    · exact ends_finish ((s.copyDone_limits ..).ok h)
    · exact ends_finish ((s.setSlot_limits l _).ok h)
    · exact ends_finish h
  | queuePass => exact ends_finish ((State.pass_limits _).ok (e := s.passTaken.ede) h)
  | _ => cases hb

theorem serve_edeOk {s : State} (h : s.ede.ok = true) (l : Link) (tag : Byte) (r : Request) :
    (serve l tag r s).1.ede.ok = true := by
  by_cases hr : limitRequest r = false
  · exact (serve_limits hr l tag s).ok h
  cases r with
  | parm n i v =>
    simp only [serve, answered, doParm]
    split
    · exact State.writeParam_edeOk h _ _
    · exact h
  | slck e lo hi c r st u => exact doSlck_edeOk h ..
  | _ => exact absurd rfl hr

theorem step_keeps_edeOk : ∀ s t : State, s.ede.ok = true → step s = .next t → t.ede.ok = true :=
  step_keeps dependsOn_edeOk (by decide) (fun _ _ h => h) (fun l tag r _ _ _ h => serve_edeOk h l tag r)
    (fun _ _ _ hb h => exec_edeOk h hb)

/-! ### The outputs' counters (R155, R157) -/

theorem Output.ok_iff (o : Output) : o.ok = true ↔
    o.packetCounter ≤ 65535 ∧ o.underrun ≤ 65535 ∧ o.late ≤ 65535 ∧ o.collision ≤ 65535 := by
  simp only [Output.ok, Bool.and_eq_true, decide_eq_true_eq, and_assoc]
  rfl

/-- Both outputs' counters are in range. -/
def State.OutputsOk (s : State) : Prop := ∀ o, (s.out o).ok = true

theorem dependsOn_outputsOk : DependsOn [.loa, .lob] State.OutputsOk := by
  intro s t h hs o
  have hloa : t.loa = s.loa := h .loa (by simp)
  have hlob : t.lob = s.lob := h .lob (by simp)
  have ho := hs o
  cases o
  exacts [(congrArg Output.ok hloa).trans ho, (congrArg Output.ok hlob).trans ho]

/-- An output written in range. -/
theorem State.setOut_outputsOk {s : State} (h : s.OutputsOk) (o : OutputId) {x : Output} (hx : x.ok = true) :
    (s.setOut o x).OutputsOk := by
  intro p
  rw [State.setOut_out]
  split
  exacts [hx, h p]

theorem Output.start_ok {o : Output} (h : o.ok = true) (k : PacketKind) (f : Frame) : (o.start k f).ok = true := by
  rw [Output.ok_iff] at h ⊢
  exact ⟨by simp only [Output.start]; omega, h.2⟩

theorem State.openSlot_outputsOk {s : State} (h : s.OutputsOk) (o : OutputId) : (s.openSlot o).OutputsOk := by
  have hstart (k : PacketKind) (f : Frame) : ((s.out o).start k f).ok = true := Output.start_ok (h o) k f
  unfold State.openSlot
  dsimp only
  split
  · exact State.setOut_outputsOk h o (hstart _ _)
  · next l _ =>
    split
    · exact State.setOut_outputsOk h o (hstart .new l.frame)
    · split
      · next =>
        obtain ⟨hcounter, -, hlate, hcollision⟩ := (Output.ok_iff _).1 (hstart .underrun l.frame)
        exact State.setOut_outputsOk h o ((Output.ok_iff _).2 ⟨hcounter, bump_le _, hlate, hcollision⟩)
      · exact State.setOut_outputsOk h o (hstart _ _)

theorem State.outputsOk_same {s t : State} (h : s.OutputsOk) (ha : t.loa = s.loa) (hb : t.lob = s.lob) : t.OutputsOk := by
  intro o
  have ho := h o
  cases o
  exacts [(congrArg Output.ok ha).trans ho, (congrArg Output.ok hb).trans ho]

theorem State.writeParam_outputsOk {s : State} (h : s.OutputsOk) (p : Param) (v : Nat) :
    (s.writeParam p v).1.OutputsOk := by
  have hwrite (o : OutputId) (c : OutputConfig) : (s.setOut o ((s.out o).configure c)).OutputsOk :=
    State.setOut_outputsOk h o (h o)
  cases p with
  | outEnable o | outMirror o => exact hwrite o _
  | outFraming o => simp only [State.writeParam]; split; exacts [hwrite o _, h]
  | centre n | deadband n | reverse n => simp only [State.writeParam, State.tune]; split <;> exact h
  | frameRate => simp only [State.writeParam]; split <;> exact State.outputsOk_same h (by simp) (by simp)
  | paceMin => simp only [State.writeParam, State.writePaceMin]; split <;> exact h
  | _ =>
    exact State.outputsOk_same h (by simp [State.writeParam, State.writeGeometry, State.writePaceMax])
      (by simp [State.writeParam, State.writeGeometry, State.writePaceMax])

theorem State.takeSettings_outputsOk {s : State} (h : s.OutputsOk) (v : Settings) : (s.takeSettings v).OutputsOk := by
  have hports : (s.arbiterTaken v).OutputsOk :=
    State.outputsOk_same h (by simp [State.arbiterTaken, State.shapersTaken, State.portsTaken])
      (by simp [State.arbiterTaken, State.shapersTaken, State.portsTaken])
  unfold State.takeSettings
  dsimp only
  rw [← State.portsTaken, ← State.shapersTaken, ← State.arbiterTaken]
  generalize s.arbiterTaken v = u at hports
  have hguards : (((((u.setSlew v.accel v.decel).setPace v.paceMin v.paceMax).setConstant v.constant).setGeometry v.rows
      v.eyeRow).setGuards v.guardAbove v.guardBelow).OutputsOk := State.outputsOk_same hports (by simp) (by simp)
  have hconfigured (c d : OutputConfig) {w : State} (hw : w.OutputsOk) :
      ({ w with loa := w.loa.configure c, lob := w.lob.configure d } : State).OutputsOk := by
    intro o
    cases o
    exacts [hw .a, hw .b]
  exact State.outputsOk_same (hconfigured v.outA v.outB hguards) (by simp) (by simp)

theorem State.takeDefaults_outputsOk {s : State} (h : s.OutputsOk) : s.takeDefaults.OutputsOk :=
  State.outputsOk_same (State.takeSettings_outputsOk h Settings.defaults) (by simp [State.takeDefaults])
    (by simp [State.takeDefaults])

theorem State.takeImage_outputsOk {s : State} (h : s.OutputsOk) (image : List Word16) :
    (s.takeImage image).OutputsOk := by
  unfold State.takeImage
  split
  · exact State.outputsOk_same (State.takeSettings_outputsOk h (settingsOf image)) (by simp) (by simp)
  · exact State.takeDefaults_outputsOk h

theorem State.leaveLoading_outputsOk {s : State} (h : s.OutputsOk) : s.leaveLoading.OutputsOk :=
  State.outputsOk_same h (by simp) (by simp)

theorem Output.reset_ok (b : Bool) : (Output.reset b).ok = true := by cases b <;> decide

theorem exec_outputsOk {c : Instr} {s : State} (h : s.OutputsOk) (hb : apart [.loa, .lob] (eventBlocks c) = false) :
    Ends State.OutputsOk (exec c s) := by
  cases c with
  | resetLine n => exact ends_finish fun o => by cases o <;> exact Output.reset_ok _
  | loadCompletion w image =>
    dsimp only [exec, execLoadCompletion]
    split
    · have hread : ({ s.reach w with mem := memoryAtLoad s.mem image } : State).OutputsOk :=
        State.outputsOk_same h rfl rfl
      exact ends_finish (State.leaveLoading_outputsOk (State.takeImage_outputsOk hread _))
    · exact ends_finish (State.outputsOk_same h rfl rfl)
  | settingsLoadTimeout w =>
    have hreach : (s.reach w).OutputsOk := State.outputsOk_same h rfl rfl
    dsimp only [exec, execSettingsLoadTimeout]
    split
    · exact ends_finish (State.leaveLoading_outputsOk (State.takeDefaults_outputsOk hreach))
    · exact ends_finish hreach
  | outputTick o =>
    have htaken : (s.outTickTaken o).OutputsOk := State.outputsOk_same h (by simp) (by simp)
    obtain ⟨hcounter, hunder, -, hcollision⟩ := (Output.ok_iff _).1 (h o)
    dsimp only [exec, execOutputTick]
    (repeat' split)
    · exact ends_finish (State.setOut_outputsOk htaken o ((Output.ok_iff _).2 ⟨hcounter, hunder, bump_le _, hcollision⟩))
    · exact ends_finish (State.openSlot_outputsOk htaken o)
    · exact ends_finish htaken
  | frameSyncRequest o =>
    obtain ⟨hcounter, hunder, hlate, -⟩ := (Output.ok_iff _).1 (h o)
    dsimp only [exec, execFrameSyncRequest]
    (repeat' split)
    · exact ends_finish (State.setOut_outputsOk h o ((Output.ok_iff _).2 ⟨hcounter, hunder, hlate, bump_le _⟩))
    · exact ends_finish (State.openSlot_outputsOk h o)
    · exact ends_finish h
  | packetSendCompletion o => exact ends_finish (State.setOut_outputsOk h o (h o))
  | _ => cases hb

theorem step_keeps_outputsOk : ∀ s t : State, s.OutputsOk → step s = .next t → t.OutputsOk := by
  refine step_keeps dependsOn_outputsOk (by decide) (fun _ _ h => State.outputsOk_same h rfl rfl)
    (fun l tag r s _ hb h => ?_) (fun _ _ _ hb h => exec_outputsOk h hb)
  cases r with
  | parm n i v =>
    simp only [serve, answered, doParm]
    split
    · exact State.writeParam_outputsOk h _ _
    · exact h
  | _ => cases hb

/-! ### Error counters and notice tables of the links (R171, R176) -/

/-- A link's error counter and notice counts are in range, and its table holds one entry for each of its kinds. -/
def LinkIface.counted (kinds : List NoticeKind) (l : LinkIface) : Prop :=
  l.errors ≤ 65535 ∧ (∀ e ∈ l.notices, e.count ≤ 255) ∧ l.notices.map (·.kind) = kinds

theorem LinkIface.ok_iff (l : LinkIface) : l.ok = true ↔ l.errors ≤ 65535 ∧ ∀ e ∈ l.notices, e.count ≤ 255 := by
  simp only [LinkIface.ok, Bool.and_eq_true, decide_eq_true_eq, List.all_eq_true]
  rfl

/-- A table whose entries are rewritten keeps its kinds, and its counts in range where each rewritten entry is. -/
theorem notices_map_counted {kinds : List NoticeKind} {t : List NoticeEntry} (hcounts : ∀ e ∈ t, e.count ≤ 255)
    (hkinds : t.map (·.kind) = kinds) {f : NoticeEntry → NoticeEntry} (hk : ∀ e, (f e).kind = e.kind)
    (hc : ∀ e, e.count ≤ 255 → (f e).count ≤ 255) :
    (∀ e ∈ t.map f, e.count ≤ 255) ∧ (t.map f).map (·.kind) = kinds := by
  refine ⟨fun e he => ?_, ?_⟩
  · obtain ⟨x, hx, rfl⟩ := List.mem_map.1 he
    exact hc x (hcounts x hx)
  · rw [List.map_map, ← hkinds]
    exact List.map_congr_left fun e _ => hk e

theorem writeEnables_counted {kinds : List NoticeKind} (ps : List (Nat × Bool)) {t : List NoticeEntry}
    (hcounts : ∀ e ∈ t, e.count ≤ 255) (hkinds : t.map (·.kind) = kinds) :
    (∀ e ∈ ps.foldl writeEnable t, e.count ≤ 255) ∧ (ps.foldl writeEnable t).map (·.kind) = kinds := by
  induction ps generalizing t with
  | nil => exact ⟨hcounts, hkinds⟩
  | cons p ps ih =>
    have hwrite := notices_map_counted hcounts hkinds
      (f := fun e => if e.kind.number = p.1 then { e with enabled := p.2 } else e) (fun e => by split <;> rfl)
      (fun e he => by split <;> exact he)
    exact ih hwrite.1 hwrite.2

theorem keptByLink_counted (kinds : List NoticeKind) : KeptByLink (LinkIface.counted kinds) where
  raise := fun l k d ⟨he, hn, hk⟩ => ⟨he, notices_map_counted hn hk (fun e => by split <;> rfl)
    (fun e h => by split; exacts [Nat.min_le_right _ _, h])⟩
  enable := fun l ps ⟨he, hn, hk⟩ => ⟨he, writeEnables_counted ps hn hk⟩
  pump := fun l ⟨he, hn, hk⟩ => by
    unfold LinkIface.pump
    split
    · exact ⟨he, hn, hk⟩
    · split
      · exact ⟨he, hn, hk⟩
      · split
        · exact ⟨he, hn, hk⟩
        · exact ⟨he, notices_map_counted hn hk (fun e => by split <;> rfl)
            (fun e h => by split; exacts [Nat.zero_le _, h])⟩
  respond := fun _ _ h _ => h
  startRead := fun _ _ h _ => h
  endRead := fun _ _ _ h _ => h
  take := fun _ _ _ h _ => h
  offer := fun l f ⟨he, hn, hk⟩ => by
    unfold LinkIface.offer
    split
    · exact ⟨he, hn, hk⟩
    · split
      · exact ⟨he, hn, hk⟩
      · exact ⟨bump_le _, hn, hk⟩
  receive := fun _ _ h => h
  countError := fun _ ⟨_, hn, hk⟩ => ⟨bump_le _, hn, hk⟩
  sent := fun _ h => h

theorem LinkIface.reset_counted_console : (LinkIface.reset consoleKinds).counted consoleKinds :=
  ⟨by decide, by decide, by decide⟩

theorem LinkIface.reset_counted_rundown : (LinkIface.reset rundownKinds).counted rundownKinds :=
  ⟨by decide, by decide, by decide⟩

/-- The kinds of a link's notice table (R176). -/
def kindsOf : Link → List NoticeKind
  | .console => consoleKinds
  | .rundown => rundownKinds

/-! ### Every range together -/

theorem State.controlOk_iff (s : State) : s.controlOk = true ↔
    s.DeskOk ∧ s.ede.ok = true ∧ s.OutputsOk ∧ LinksMeet (fun l => LinkIface.counted (kindsOf l)) s ∧
      s.tbp.glitches ≤ Config.counterMax ∧ s.tbp.clock ≤ Config.clockMax := by
  have hlinks : LinksMeet (fun l => LinkIface.counted (kindsOf l)) s ↔
      s.cli.counted consoleKinds ∧ s.rli.counted rundownKinds :=
    ⟨fun h => ⟨h .console, h .rundown⟩, fun h l => by cases l; exacts [h.1, h.2]⟩
  have houts : s.OutputsOk ↔ s.loa.ok = true ∧ s.lob.ok = true :=
    ⟨fun h => ⟨h .a, h .b⟩, fun h o => by cases o; exacts [h.1, h.2]⟩
  simp only [State.controlOk, State.tablesOk, Bool.and_eq_true, decide_eq_true_eq, LinkIface.ok_iff, hlinks, houts,
    State.DeskOk, LinkIface.counted]
  tauto

/-- Settles O10: the hand side, the engine with the timebase that feeds it, arbiter and stager, edit engine, outputs and
links, each by its own induction. -/
theorem stepKeepsRanges : Obligations.StepKeepsRanges := by
  intro s t hhand hscroll hcontrol ht
  obtain ⟨hdesk, hede, houts, hlinks, hglitches, hclock⟩ := s.controlOk_iff.1 hcontrol
  obtain ⟨hsce, hconstant, hpace, hmax⟩ := s.scrollOk_iff.1 hscroll
  have htime : s.tbp.ok := ⟨hconstant, hpace, hmax, hglitches, hclock⟩
  obtain ⟨hconstant', hpace', hmax', hglitches', hclock'⟩ := step_keeps_timebaseOk s t htime ht
  have hsce' := step_leads_sceOk s t ⟨hhand, hsce, htime⟩ ht
  have hlinks' := step_keeps_links (L := fun l => LinkIface.counted (kindsOf l)) (fun l => keptByLink_counted (kindsOf l))
    LinkIface.reset_counted_console LinkIface.reset_counted_rundown hlinks ht
  exact ⟨step_keeps_handOk s t hhand ht, t.scrollOk_iff.2 ⟨hsce', hconstant', hpace', hmax'⟩,
    t.controlOk_iff.2 ⟨step_keeps_deskOk s t hdesk ht, step_keeps_edeOk s t hede ht, step_keeps_outputsOk s t houts ht,
      hlinks', hglitches', hclock'⟩⟩

end Sys2Proof.Machine

/-! PROOFS. The script store under a commit queue (chapter 1, section 7.3): lines, stories and reservations in agreement,
across reservation, release, page copy and the apply of each of the five edits (R1, R3, R4, R6, R10 to R15). -/

namespace Sys2Proof.Machine

/-! ### Lists split at a point -/

/-- The key of an entry: its link and tag (R127). -/
def Entry.key (e : Entry) : Link × Byte := (e.link, e.tag)

theorem spanOf_eq {lines : List Nat} {f l : Nat} :
    spanOf lines f l = (lines.take (lines.idxOf l + 1)).drop (lines.idxOf f) := by
  rw [spanOf, List.drop_take]

/-- A sound span cuts a line list in three (R11, R125). -/
theorem lines_cut {lines : List Nat} {f l : Nat} (h : spanCheck lines f l = none) (new : List Nat) :
    ∃ front back, lines = front ++ spanOf lines f l ++ back ∧ replaceSpan lines f l new = front ++ new ++ back ∧
      f ∈ spanOf lines f l := by
  have hf : f ∈ lines := by
    by_contra hf
    simp [spanCheck, hf] at h
  have hle : lines.idxOf f ≤ lines.idxOf l := by
    by_contra hle
    simp [spanCheck, failUnless, hf, hle] at h
  refine ⟨lines.take (lines.idxOf f), lines.drop (lines.idxOf l + 1), ?_, rfl, ?_⟩
  · rw [spanOf_eq]
    conv_lhs => rw [← List.take_append_drop (lines.idxOf l + 1) lines,
      ← List.take_append_drop (lines.idxOf f) (lines.take (lines.idxOf l + 1))]
    rw [List.take_take, min_eq_left (by omega)]
  · rw [spanOf, List.mem_take_iff_getElem]
    have hlt := List.idxOf_lt_length_of_mem hf
    refine ⟨0, by simp; omega, by simp⟩

/-- New lines go in at one point of a line list (R12). -/
theorem insertLines_cut (lines : List Nat) (a : Option Nat) (new : List Nat) :
    ∃ front back, lines = front ++ back ∧ insertLines lines a new = front ++ new ++ back := by
  cases a with
  | none => exact ⟨[], lines, rfl, rfl⟩
  | some x => exact ⟨_, _, (List.take_append_drop _ _).symm, rfl⟩

/-- A story goes in at one point of the rundown (R13). -/
theorem insertStory_cut (rundown : List Story) (a : Option Nat) (s : Story) :
    ∃ front back, rundown = front ++ back ∧ insertStory rundown a s = front ++ s :: back := by
  cases a with
  | none => exact ⟨[], rundown, rfl, rfl⟩
  | some x => exact ⟨_, _, (List.take_append_drop (rundown.findIdx (·.number = x) + 1) rundown).symm,
    by simp [insertStory, splitAfter]⟩

theorem insertStory_perm (rundown : List Story) (a : Option Nat) (s : Story) :
    (insertStory rundown a s).Perm (s :: rundown) := by
  obtain ⟨front, back, rfl, hins⟩ := insertStory_cut rundown a s
  rw [hins]
  exact List.perm_middle

/-! ### The rundown cut at a story (R6) -/

/-- Where a story number names one story, the stories around it have other numbers. -/
theorem numbers_around {before rest : List Story} {a : Story} (h : ((before ++ a :: rest).map (·.number)).Nodup) :
    ∀ x ∈ before ++ rest, x.number ≠ a.number := by
  simp only [List.map_append, List.map_cons, List.nodup_append, List.nodup_cons, List.mem_map, List.mem_cons] at h
  obtain ⟨-, ⟨hafter, -⟩, hbefore⟩ := h
  intro x hx hn
  rcases List.mem_append.1 hx with hx | hx
  · exact hbefore _ ⟨x, hx, rfl⟩ _ (.inl rfl) hn
  · exact hafter ⟨x, hx, hn⟩

section
variable {before rest : List Story} {a : Story} (h : ∀ x ∈ before ++ rest, x.number ≠ a.number)
include h

theorem findStory_at : (before ++ a :: rest).find? (·.number = a.number) = some a := by
  have hnone : before.find? (·.number = a.number) = none := by
    rw [List.find?_eq_none]
    exact fun x hx => by simpa using h x (by simp [hx])
  simp [List.find?_append, hnone]

theorem findStoryIdx_at : (before ++ a :: rest).findIdx (·.number = a.number) = before.length := by
  have hnone : before.findIdx (·.number = a.number) = before.length := by
    rw [List.findIdx_eq_length]
    exact fun x hx => by simpa using h x (by simp [hx])
  rw [List.findIdx_append, hnone]
  simp [List.findIdx_cons]

theorem changeLines_at (f : List Nat → List Nat) :
    changeLines (before ++ a :: rest) a.number f = before ++ { a with lines := f a.lines } :: rest := by
  have hid (part : List Story) (hpart : ∀ x ∈ part, x ∈ before ++ rest) :
      part.map (fun x => if x.number = a.number then { x with lines := f x.lines } else x) = part := by
    conv_rhs => rw [← List.map_id part]
    exact List.map_congr_left fun x hx => if_neg (h x (hpart x hx))
  simp [changeLines, hid before (by simp +contextual), hid rest (by simp +contextual)]

theorem withoutStory_at : withoutStory (before ++ a :: rest) a.number = before ++ rest := by
  have hfilter : (before ++ rest).filter (·.number ≠ a.number) = before ++ rest :=
    List.filter_eq_self.2 fun x hx => decide_eq_true (h x hx)
  simpa [withoutStory] using hfilter

theorem splitAfter_at : splitAfter (before ++ a :: rest) (some a.number) = (before ++ [a], rest) := by
  rw [splitAfter, findStoryIdx_at h, List.splitAt_eq]
  simp [List.take_append, List.drop_append]

theorem insertStory_at (x : Story) : insertStory (before ++ a :: rest) (some a.number) x = before ++ a :: x :: rest := by
  rw [insertStory, splitAfter_at h]
  simp

end

/-! ### Soundness of a store under a queue -/

/-- A slot of the pool that is not free holds a line of the story, or is reserved (R1). -/
def Store.holds (st : Store) (lid : Nat) (o : Option Nat) : Prop := ∃ l ∈ st.pool, l.lid = lid ∧ l.story = o

/-- The rundown lists a line in the story of a number (R6). -/
def listedIn (rundown : List Story) (lid n : Nat) : Prop := ∃ x ∈ rundown, x.number = n ∧ lid ∈ x.lines

/-- The rundown in order: no number twice, no more stories or lines than fit, no line twice in a story (R6). -/
structure RundownSound (rundown : List Story) : Prop where
  numbers : (rundown.map (·.number)).Nodup
  stories : rundown.length ≤ 256
  lines : ∀ x ∈ rundown, x.lines.length ≤ 2048
  once : ∀ x ∈ rundown, x.lines.Nodup

/-- The pool fits its slots, and the LID counter lies in its range (R1, R3). -/
def Store.Fits (st : Store) : Prop :=
  st.pool.length ≤ Config.poolSlots ∧ 1 ≤ st.nextLid ∧ st.nextLid ≤ Config.lidMax + 1

/-- The pool in order of LID, below the counter (R3). -/
structure PoolSound (st : Store) : Prop where
  rising : (st.pool.map (·.lid)).Pairwise (· < ·)
  range : ∀ l ∈ st.pool, 1 ≤ l.lid ∧ l.lid < st.nextLid

/-- The queue's entries: no link and tag twice, as many lines as the kind may have, no line in two (R127). -/
structure QueueSound (q : List Entry) : Prop where
  keys : (q.map Entry.key).Nodup
  counts : ∀ e ∈ q, countInRange e.edit e.lids.length = true
  once : (q.flatMap (·.lids)).Nodup

/-- Store and commit queue agree: the lines in use are those listed, the reserved lines those of the entries (R1, R6, R127). -/
structure StoreSound (st : Store) (q : List Entry) : Prop where
  pool : PoolSound st
  rundown : RundownSound st.rundown
  queue : QueueSound q
  inUse : ∀ lid n, st.holds lid (some n) ↔ listedIn st.rundown lid n
  reserved : ∀ lid, st.holds lid none ↔ lid ∈ q.flatMap (·.lids)

/-- A LID names one slot of the pool (R3). -/
theorem PoolSound.one_story {st : Store} (h : PoolSound st) {lid : Nat} {a b : Option Nat} (ha : st.holds lid a)
    (hb : st.holds lid b) : a = b := by
  obtain ⟨l, hl, rfl, rfl⟩ := ha
  obtain ⟨m, hm, hlid, rfl⟩ := hb
  have hinj := List.inj_on_of_nodup_map (h.rising.imp fun hlt => hlt.ne) hm hl hlid
  rw [hinj]

/-- A story number names one story (R6). -/
theorem RundownSound.one_record {r : List Story} (h : RundownSound r) {x y : Story} (hx : x ∈ r) (hy : y ∈ r)
    (hn : x.number = y.number) : x = y := List.inj_on_of_nodup_map h.numbers hx hy hn

theorem Store.story?_mem {st : Store} {n : Nat} {x : Story} (h : st.story? n = some x) : x ∈ st.rundown ∧ x.number = n := by
  have hnum := List.find?_some h
  exact ⟨List.mem_of_find?_eq_some h, by simpa using hnum⟩

theorem Store.story?_none {st : Store} {n : Nat} (h : st.story? n = none) : ∀ x ∈ st.rundown, x.number ≠ n := by
  simpa [Store.story?] using h

theorem RundownSound.listedIn_iff {st : Store} (h : RundownSound st.rundown) {n : Nat} {x : Story}
    (hx : st.story? n = some x) (lid : Nat) : listedIn st.rundown lid n ↔ lid ∈ x.lines := by
  obtain ⟨hmem, rfl⟩ := Store.story?_mem hx
  constructor
  · rintro ⟨y, hy, hn, hl⟩
    exact h.one_record hy hmem hn ▸ hl
  · exact fun hl => ⟨x, hmem, rfl, hl⟩

/-! #### The lines an edit removes -/

/-- The lines an edit removes are lines of the story it names (R11, R14). -/
theorem StoreSound.removed_listed {st : Store} {q : List Entry} (_ : StoreSound st q) {e : EditParams} {lid : Nat}
    (hl : lid ∈ st.removedBy e) : listedIn st.rundown lid (editStory e) := by
  have hlisted {n : Nat} {x : Story} (hx : st.story? n = some x) (hm : lid ∈ x.lines) : listedIn st.rundown lid n := by
    obtain ⟨hmem, hn⟩ := Store.story?_mem hx
    exact ⟨x, hmem, hn, hm⟩
  cases e with
  | linesReplace s f l =>
    simp only [Store.removedBy] at hl
    split at hl
    · next x hx => exact hlisted hx (List.mem_of_mem_drop (List.mem_of_mem_take hl))
    · simp at hl
  | storyDrop s =>
    simp only [Store.removedBy] at hl
    split at hl
    · next x hx => exact hlisted hx hl
    · simp at hl
  | _ => simp [Store.removedBy] at hl

/-! ### Reservation, release and page copy -/

/-- What holds of the slots after some were freed. -/
theorem Store.release_holds (st : Store) (lids : List Nat) (lid : Nat) (o : Option Nat) :
    (st.release lids).holds lid o ↔ st.holds lid o ∧ lid ∉ lids := by
  simp only [Store.holds, Store.release, List.mem_filter, Bool.not_eq_true', List.contains_eq_mem,
    decide_eq_false_iff_not]
  constructor
  · rintro ⟨l, ⟨hl, hnot⟩, rfl, rfl⟩
    exact ⟨⟨l, hl, rfl, rfl⟩, hnot⟩
  · rintro ⟨⟨l, hl, rfl, rfl⟩, hnot⟩
    exact ⟨l, ⟨hl, hnot⟩, rfl, rfl⟩

theorem PoolSound.filter {st u : Store} (h : PoolSound st) {p : PoolLine → Bool} (hpool : u.pool = st.pool.filter p)
    (hnext : u.nextLid = st.nextLid) : PoolSound u where
  rising := by rw [hpool]; exact h.rising.sublist (List.filter_sublist.map _)
  range := by rw [hpool, hnext]; exact fun l hl => h.range l (List.mem_of_mem_filter hl)

/-- The queue with one entry taken out. -/
theorem QueueSound.without {before after : List Entry} {e : Entry} (h : QueueSound (before ++ e :: after)) :
    QueueSound (before ++ after) where
  keys := h.keys.sublist (by simp)
  counts := fun x hx => h.counts x (by simp at hx ⊢; tauto)
  once := h.once.sublist (by simp)

/-- The lines of one entry are in no other. -/
theorem QueueSound.mem_without {before after : List Entry} {e : Entry} (h : QueueSound (before ++ e :: after)) (lid : Nat) :
    lid ∈ (before ++ after).flatMap (·.lids) ↔ lid ∈ (before ++ e :: after).flatMap (·.lids) ∧ lid ∉ e.lids := by
  have honce := h.once
  simp only [List.flatMap_append, List.flatMap_cons, List.nodup_append, List.mem_append] at honce ⊢
  obtain ⟨-, ⟨-, -, hafter⟩, hbefore⟩ := honce
  constructor
  · rintro (hm | hm)
    · exact ⟨.inl hm, fun he => hbefore _ hm _ (.inl he) rfl⟩
    · exact ⟨.inr (.inr hm), fun he => hafter _ he _ hm rfl⟩
  · rintro ⟨hm | hm | hm, hnot⟩
    · exact .inl hm
    · exact absurd hm hnot
    · exact .inr hm

/-- An entry that leaves the queue without apply frees its lines (R4). -/
theorem StoreSound.release {st : Store} {before after : List Entry} {e : Entry}
    (h : StoreSound st (before ++ e :: after)) : StoreSound (st.release e.lids) (before ++ after) where
  pool := h.pool.filter rfl rfl
  rundown := h.rundown
  queue := h.queue.without
  inUse := fun lid n => by
    rw [Store.release_holds, h.inUse]
    refine and_iff_left_of_imp fun hl he => ?_
    have hres := (h.reserved lid).2 (by simp [he])
    have huse := (h.inUse lid n).2 hl
    exact absurd (h.pool.one_story hres huse) (by simp)
  reserved := fun lid => by rw [Store.release_holds, h.reserved, h.queue.mem_without]

/-- A page copied leaves every slot the story and LID it had (R2, R128). -/
theorem Store.writePage_holds (st : Store) (lids : List Nat) (page : Page) (lid : Nat) (o : Option Nat) :
    (st.writePage lids page).holds lid o ↔ st.holds lid o := by
  simp only [Store.holds, Store.writePage, List.mem_map]
  constructor
  · rintro ⟨-, ⟨l, hl, rfl⟩, hlid, ho⟩
    refine ⟨l, hl, ?_, ?_⟩
    · rw [← hlid]; split <;> rfl
    · rw [← ho]; split <;> rfl
  · rintro ⟨l, hl, hlid, ho⟩
    refine ⟨_, ⟨l, hl, rfl⟩, ?_, ?_⟩ <;> split <;> assumption

theorem Store.writePage_lids (st : Store) (lids : List Nat) (page : Page) :
    (st.writePage lids page).pool.map (·.lid) = st.pool.map (·.lid) := by
  simp only [Store.writePage, List.map_map]
  refine List.map_congr_left fun l _ => ?_
  simp only [Function.comp]
  split <;> rfl

/-- A pool whose LIDs and counter are those of another in order. -/
theorem PoolSound.of_lids {st u : Store} (h : PoolSound st) (hlids : u.pool.map (·.lid) = st.pool.map (·.lid))
    (hnext : u.nextLid = st.nextLid) : PoolSound u where
  rising := by rw [hlids]; exact h.rising
  range := fun l hl => by
    have hmem : l.lid ∈ st.pool.map (·.lid) := hlids ▸ List.mem_map_of_mem hl
    obtain ⟨m, hm, hlid⟩ := List.mem_map.1 hmem
    rw [hnext, ← hlid]
    exact h.range m hm

theorem StoreSound.writePage {st : Store} {q : List Entry} (h : StoreSound st q) (lids : List Nat) (page : Page) :
    StoreSound (st.writePage lids page) q where
  pool := h.pool.of_lids (st.writePage_lids lids page) rfl
  rundown := h.rundown
  queue := h.queue
  inUse := fun lid n => (st.writePage_holds ..).trans (h.inUse lid n)
  reserved := fun lid => (st.writePage_holds ..).trans (h.reserved lid)

/-- Entries changed in state and marks only. -/
theorem StoreSound.changed {st : Store} {q r : List Entry} (h : StoreSound st q)
    (hr : r.map (fun e => (e.key, e.edit, e.lids)) = q.map (fun e => (e.key, e.edit, e.lids))) : StoreSound st r := by
  have hlids : r.flatMap (·.lids) = q.flatMap (·.lids) := by
    have hmap := congrArg (List.flatMap fun x => x.2.2) hr
    simpa [List.flatMap_map] using hmap
  refine ⟨h.pool, h.rundown, ⟨?_, fun e he => ?_, by rw [hlids]; exact h.queue.once⟩, h.inUse, by rw [hlids]; exact h.reserved⟩
  · have hkeys := congrArg (List.map fun x => x.1) hr
    simp only [List.map_map, Function.comp_def] at hkeys
    rw [show r.map Entry.key = q.map Entry.key from hkeys]
    exact h.queue.keys
  · have hmem : (e.key, e.edit, e.lids) ∈ q.map (fun e => (e.key, e.edit, e.lids)) := hr ▸ List.mem_map_of_mem he
    obtain ⟨f, hf, heq⟩ := List.mem_map.1 hmem
    simp only [Prod.mk.injEq] at heq
    rw [← heq.2.1, ← heq.2.2]
    exact h.queue.counts f hf

/-- Lines reserved for a new entry (R3, R126). -/
theorem StoreSound.reserve {st u : Store} {q : List Entry} (h : StoreSound st q) {e : Entry} {n : Nat}
    (hr : st.reserve n = .ok (u, e.lids)) (hcounter : n ≠ 0 → 1 ≤ st.nextLid) (hkey : e.key ∉ q.map Entry.key)
    (hn : countInRange e.edit n = true) :
    StoreSound u (q ++ [e]) := by
  obtain ⟨-, -, hlids, rfl⟩ := Store.reserve_ok hr
  have hlen : e.lids.length = n := by simp [hlids]
  have hmem (lid : Nat) : lid ∈ e.lids ↔ st.nextLid ≤ lid ∧ lid < st.nextLid + n := by
    simp only [hlids, List.mem_map, List.mem_range]
    exact ⟨by rintro ⟨k, hk, rfl⟩; omega, fun hl => ⟨lid - st.nextLid, by omega, by omega⟩⟩
  have hnew : e.lids.Pairwise (· < ·) := by
    rw [hlids, List.pairwise_map]
    exact List.pairwise_lt_range.imp fun hlt => by omega
  have hold (lid : Nat) (o : Option Nat) (hh : st.holds lid o) : lid ∉ e.lids := by
    obtain ⟨l, hl, rfl, -⟩ := hh
    have hrange := h.pool.range l hl
    rw [hmem]
    omega
  have hholds (lid : Nat) (o : Option Nat) :
      Store.holds { st with pool := st.pool ++ e.lids.map (fun l => ⟨l, none, none⟩), nextLid := st.nextLid + n } lid o ↔
        st.holds lid o ∨ (o = none ∧ lid ∈ e.lids) := by
    simp only [Store.holds, List.mem_append, List.mem_map]
    constructor
    · rintro ⟨l, hl | ⟨m, hm, rfl⟩, rfl, rfl⟩
      · exact .inl ⟨l, hl, rfl, rfl⟩
      · exact .inr ⟨rfl, hm⟩
    · rintro (⟨l, hl, rfl, rfl⟩ | ⟨rfl, hl⟩)
      · exact ⟨l, .inl hl, rfl, rfl⟩
      · exact ⟨_, .inr ⟨lid, hl, rfl⟩, rfl, rfl⟩
  refine ⟨⟨?_, ?_⟩, h.rundown, ⟨?_, ?_, ?_⟩, fun lid m => ?_, fun lid => ?_⟩
  · simp only [List.map_append, List.map_map, Function.comp_def, List.map_id', List.pairwise_append]
    refine ⟨h.pool.rising, hnew, fun a ha b hb => ?_⟩
    obtain ⟨l, hl, rfl⟩ := List.mem_map.1 ha
    have hrange := h.pool.range l hl
    have hb' := (hmem b).1 hb
    omega
  · intro l hl
    show 1 ≤ l.lid ∧ l.lid < st.nextLid + n
    rcases List.mem_append.1 hl with hl | hl
    · have hrange := h.pool.range l hl
      omega
    · obtain ⟨m, hm, rfl⟩ := List.mem_map.1 hl
      obtain ⟨hlow, hhigh⟩ := (hmem m).1 hm
      have hpos := hcounter (by omega)
      exact ⟨hpos.trans hlow, hhigh⟩
  · simp only [List.map_append, List.map_cons, List.map_nil]
    exact List.nodup_append.2 ⟨h.queue.keys, by simp, fun a ha b hb => by simp at hb; exact fun hab => hkey (hb ▸ hab ▸ ha)⟩
  · intro x hx
    rcases List.mem_append.1 hx with hx | hx
    · exact h.queue.counts x hx
    · rw [List.mem_singleton.1 hx, hlen]; exact hn
  · simp only [List.flatMap_append, List.flatMap_cons, List.flatMap_nil, List.append_nil]
    refine List.nodup_append.2 ⟨h.queue.once, hnew.imp fun hlt => hlt.ne, fun a ha b hb hab => ?_⟩
    exact hold a none ((h.reserved a).2 ha) (hab ▸ hb)
  · rw [hholds]
    simpa using h.inUse lid m
  · rw [hholds, h.reserved]
    simp

end Sys2Proof.Machine

/-! PROOFS. The apply of each of the five edits keeps the script store in order (R10 to R15). -/

namespace Sys2Proof.Machine

/-! ### Line lists and rundown after an apply -/

/-- What a line list of the rundown after an apply holds, against the lines removed and added. -/
structure RundownTook (r r' : List Story) (n : Nat) (removed lids : List Nat) : Prop where
  numbers : (r'.map (·.number)).Nodup
  stories : r'.length ≤ 256
  lines : ∀ x ∈ r', x.lines.length ≤ 2048
  once : ∀ x ∈ r', x.lines.Nodup
  listed : ∀ lid m, listedIn r' lid m ↔ (lid ∈ lids ∧ m = n) ∨ (lid ∉ removed ∧ listedIn r lid m)

theorem changeLines_numbers (r : List Story) (n : Nat) (f : List Nat → List Nat) :
    (changeLines r n f).map (·.number) = r.map (·.number) := by
  simp only [changeLines, List.map_map]
  refine List.map_congr_left fun x _ => ?_
  simp only [Function.comp]
  split <;> rfl

theorem mem_changeLines {r : List Story} {n : Nat} {f : List Nat → List Nat} {y : Story} (h : y ∈ changeLines r n f) :
    ∃ x ∈ r, x.number = y.number ∧ y.lines = if y.number = n then f x.lines else x.lines := by
  obtain ⟨x, hx, rfl⟩ := List.mem_map.1 h
  refine ⟨x, hx, ?_, ?_⟩
  · split <;> rfl
  · by_cases hn : x.number = n
    · rw [if_pos hn, if_pos hn]
    · rw [if_neg hn, if_neg hn]

theorem listedIn_changeLines (r : List Story) (n : Nat) (f : List Nat → List Nat) (lid m : Nat) :
    listedIn (changeLines r n f) lid m ↔ ∃ x ∈ r, x.number = m ∧ lid ∈ if m = n then f x.lines else x.lines := by
  constructor
  · rintro ⟨y, hy, rfl, hl⟩
    obtain ⟨x, hx, hn, hlines⟩ := mem_changeLines hy
    exact ⟨x, hx, hn, hlines ▸ hl⟩
  · rintro ⟨x, hx, rfl, hl⟩
    refine ⟨_, List.mem_map_of_mem hx, ?_, ?_⟩
    · split <;> rfl
    · by_cases hn : x.number = n
      · rw [if_pos hn] at hl ⊢
        exact hl
      · rw [if_neg hn] at hl ⊢
        exact hl

section
variable {st : Store} {q : List Entry}

/-- Listed lines of one story are listed in no other. -/
theorem StoreSound.listed_once (h : StoreSound st q) {lid n m : Nat} (hn : listedIn st.rundown lid n)
    (hm : listedIn st.rundown lid m) : n = m := by
  have heq := h.pool.one_story ((h.inUse lid n).2 hn) ((h.inUse lid m).2 hm)
  simpa using heq

/-- The line list of one story changed: the new list against the old one is all that has to be shown (R11, R12). -/
theorem StoreSound.changeLines_took (h : StoreSound st q) {n : Nat} {x : Story} (hx : st.story? n = some x)
    {f : List Nat → List Nat} {removed lids : List Nat} (hremoved : ∀ lid ∈ removed, listedIn st.rundown lid n)
    (hlen : (f x.lines).length ≤ 2048) (honce : (f x.lines).Nodup)
    (hmem : ∀ lid, lid ∈ f x.lines ↔ lid ∈ lids ∨ (lid ∉ removed ∧ lid ∈ x.lines)) :
    RundownTook st.rundown (changeLines st.rundown n f) n removed lids := by
  obtain ⟨hmemx, rfl⟩ := Store.story?_mem hx
  have hlist {y : Story} (hy : y ∈ changeLines st.rundown x.number f) :
      (y.lines = f x.lines) ∨ ∃ z ∈ st.rundown, y.lines = z.lines := by
    obtain ⟨z, hz, hnum, hlines⟩ := mem_changeLines hy
    by_cases hn : y.number = x.number
    · rw [if_pos hn, h.rundown.one_record hz hmemx (hnum.trans hn)] at hlines
      exact .inl hlines
    · rw [if_neg hn] at hlines
      exact .inr ⟨z, hz, hlines⟩
  refine ⟨?_, ?_, fun y hy => ?_, fun y hy => ?_, fun lid m => ?_⟩
  · rw [changeLines_numbers]; exact h.rundown.numbers
  · simpa [changeLines] using h.rundown.stories
  · rcases hlist hy with heq | ⟨z, hz, heq⟩ <;> rw [heq]
    exacts [hlen, h.rundown.lines z hz]
  · rcases hlist hy with heq | ⟨z, hz, heq⟩ <;> rw [heq]
    exacts [honce, h.rundown.once z hz]
  · rw [listedIn_changeLines]
    by_cases hm : m = x.number
    · subst hm
      simp only [and_true]
      rw [h.rundown.listedIn_iff hx, ← hmem]
      constructor
      · rintro ⟨y, hy, hn, hl⟩
        exact h.rundown.one_record hy hmemx hn ▸ hl
      · exact fun hl => ⟨x, hmemx, rfl, hl⟩
    · simp only [hm, and_false, false_or]
      refine ⟨fun hl => ⟨fun hr => hm (h.listed_once hl (hremoved lid hr)), hl⟩, fun hl => hl.2⟩

/-- LINES_REPLACE (R11). -/
theorem StoreSound.replace_took (h : StoreSound st q) {n f l : Nat} {lids : List Nat} (hlids : lids.Nodup)
    (hnew : ∀ lid ∈ lids, ∀ m, ¬ listedIn st.rundown lid m)
    (hstruct : st.structural (.linesReplace n f l) = none) (hlimit : st.limit (.linesReplace n f l) lids.length = none) :
    RundownTook st.rundown (st.rundownAfter (.linesReplace n f l) lids) n (st.removedBy (.linesReplace n f l)) lids := by
  simp only [Store.structural] at hstruct
  split at hstruct
  · cases hstruct
  next x hx =>
  have hremoved : st.removedBy (.linesReplace n f l) = spanOf x.lines f l := by simp only [Store.removedBy, hx]
  obtain ⟨front, back, hcut, hreplace, -⟩ := lines_cut hstruct lids
  have hmemx := (Store.story?_mem hx).1
  have honce := h.rundown.once x hmemx
  have hfresh (lid : Nat) (hl : lid ∈ lids) : lid ∉ x.lines :=
    fun hm => hnew lid hl n ((h.rundown.listedIn_iff hx lid).2 hm)
  refine h.changeLines_took (f := fun ls => replaceSpan ls f l lids) (lids := lids) hx
    (fun lid hl => h.removed_listed (e := .linesReplace n f l) hl) ?_ ?_ (fun lid => ?_)
  · have hlen := congrArg List.length hcut
    simp only [Store.limit, hremoved, Store.linesIn, hx, failUnless] at hlimit
    split at hlimit
    · next hle =>
      have hle := of_decide_eq_true hle
      simp only [Config.storyLinesMax] at hle
      simp only [List.length_append] at hlen
      rw [hreplace]
      simp only [List.length_append]
      omega
    · cases hlimit
  · rw [hreplace]
    rw [hcut] at honce
    have hparts := honce
    simp only [List.nodup_append, List.mem_append] at hparts ⊢
    obtain ⟨⟨hfront, -, -⟩, hback, hdisjoint⟩ := hparts
    refine ⟨⟨hfront, hlids, fun a ha b hb hab => hfresh b hb (hcut ▸ hab ▸ by simp [ha])⟩, hback, fun a ha b hb hab => ?_⟩
    rcases ha with ha | ha
    · exact hdisjoint a (.inl ha) b hb hab
    · exact hfresh a ha (hcut ▸ hab ▸ by simp [hb])
  · rw [hreplace, hremoved]
    rw [hcut] at honce
    have hspan (hs : lid ∈ spanOf x.lines f l) : lid ∉ front ∧ lid ∉ back := by
      simp only [List.nodup_append, List.mem_append] at honce
      obtain ⟨⟨-, -, hfs⟩, -, hsb⟩ := honce
      exact ⟨fun hf => hfs _ hf _ hs rfl, fun hb => hsb _ (.inr hs) _ hb rfl⟩
    conv_rhs => rw [hcut]
    simp only [List.mem_append]
    rw [← hcut]
    tauto

/-- LINES_INSERT (R12). -/
theorem StoreSound.insert_took (h : StoreSound st q) {n : Nat} {a : Option Nat} {lids : List Nat} (hlids : lids.Nodup)
    (hnew : ∀ lid ∈ lids, ∀ m, ¬ listedIn st.rundown lid m)
    (hstruct : st.structural (.linesInsert n a) = none) (hlimit : st.limit (.linesInsert n a) lids.length = none) :
    RundownTook st.rundown (st.rundownAfter (.linesInsert n a) lids) n (st.removedBy (.linesInsert n a)) lids := by
  simp only [Store.structural] at hstruct
  split at hstruct
  · cases hstruct
  next x hx =>
  obtain ⟨front, back, hcut, hinsert⟩ := insertLines_cut x.lines a lids
  have honce := h.rundown.once x (Store.story?_mem hx).1
  have hfresh (lid : Nat) (hl : lid ∈ lids) : lid ∉ x.lines :=
    fun hm => hnew lid hl n ((h.rundown.listedIn_iff hx lid).2 hm)
  have hperm : (insertLines x.lines a lids).Perm (lids ++ x.lines) := by
    rw [hinsert, hcut, ← List.append_assoc]
    exact (List.perm_append_comm.append_right _)
  refine h.changeLines_took (f := fun ls => insertLines ls a lids) (lids := lids) hx
    (fun lid hl => h.removed_listed (e := .linesInsert n a) hl) ?_ ?_ (fun lid => ?_)
  · simp only [Store.limit, Store.linesIn, hx, failUnless] at hlimit
    split at hlimit
    · next hle =>
      have hle := of_decide_eq_true hle
      simp only [Config.storyLinesMax] at hle
      rw [hperm.length_eq, List.length_append]
      omega
    · cases hlimit
  · rw [hperm.nodup_iff, List.nodup_append]
    exact ⟨hlids, honce, fun b hb c hc hbc => hfresh b hb (hbc ▸ hc)⟩
  · rw [hperm.mem_iff, List.mem_append]
    simp [Store.removedBy]

theorem listedIn_perm {r r' : List Story} (h : r'.Perm r) (lid n : Nat) : listedIn r' lid n ↔ listedIn r lid n := by
  simp only [listedIn, h.mem_iff]

/-- STORY_INSERT (R13). -/
theorem StoreSound.storyInsert_took (h : StoreSound st q) {n : Nat} {a : Option Nat} {slug : Option (List CharCell)}
    {t : Option Nat} {lids : List Nat} (hlids : lids.Nodup) (hcount : lids.length ≤ 64)
    (hstruct : st.structural (.storyInsert n a slug t) = none)
    (hlimit : st.limit (.storyInsert n a slug t) lids.length = none) :
    RundownTook st.rundown (st.rundownAfter (.storyInsert n a slug t) lids) n (st.removedBy (.storyInsert n a slug t))
      lids := by
  have hfree : ∀ x ∈ st.rundown, x.number ≠ n := by
    simp only [Store.structural, Option.or_eq_none_iff, failUnless] at hstruct
    obtain ⟨hstory, -⟩ := hstruct
    split at hstory
    · next hnone => exact Store.story?_none (by simpa using hnone)
    · cases hstory
  have hroom : st.rundown.length < 256 := by
    simp only [Store.limit, failUnless] at hlimit
    split at hlimit
    · next hlt => exact of_decide_eq_true hlt
    · cases hlimit
  have hperm := insertStory_perm st.rundown a ⟨n, slug, t, lids, false⟩
  refine ⟨?_, ?_, fun x hx => ?_, fun x hx => ?_, fun lid m => ?_⟩
  · rw [Store.rundownAfter, (hperm.map _).nodup_iff, List.map_cons, List.nodup_cons]
    refine ⟨fun hm => ?_, h.rundown.numbers⟩
    obtain ⟨x, hx, hn⟩ := List.mem_map.1 hm
    exact hfree x hx hn
  · rw [Store.rundownAfter, hperm.length_eq, List.length_cons]
    omega
  · rw [Store.rundownAfter, hperm.mem_iff, List.mem_cons] at hx
    rcases hx with rfl | hx
    · exact hcount.trans (by decide)
    · exact h.rundown.lines x hx
  · rw [Store.rundownAfter, hperm.mem_iff, List.mem_cons] at hx
    rcases hx with rfl | hx
    exacts [hlids, h.rundown.once x hx]
  · rw [Store.rundownAfter, listedIn_perm hperm]
    simp only [listedIn, List.mem_cons, exists_eq_or_imp, Store.removedBy, List.not_mem_nil, not_false_eq_true, true_and]
    rw [and_comm (a := n = m), eq_comm (a := n)]

theorem mem_withoutStory {r : List Story} {n : Nat} {x : Story} : x ∈ withoutStory r n ↔ x ∈ r ∧ x.number ≠ n := by
  simp [withoutStory]

/-- STORY_DROP (R14). -/
theorem StoreSound.drop_took (h : StoreSound st q) {n : Nat} (hstruct : st.structural (.storyDrop n) = none) :
    RundownTook st.rundown (st.rundownAfter (.storyDrop n) []) n (st.removedBy (.storyDrop n)) [] := by
  simp only [Store.structural, Store.storyCheck, failUnless] at hstruct
  split at hstruct
  · next hsome =>
    obtain ⟨x, hx⟩ := Option.isSome_iff_exists.1 hsome
    have hsub : (withoutStory st.rundown n).Sublist st.rundown := List.filter_sublist
    refine ⟨h.rundown.numbers.sublist (hsub.map _), hsub.length_le.trans h.rundown.stories,
      fun y hy => h.rundown.lines y (hsub.subset hy), fun y hy => h.rundown.once y (hsub.subset hy), fun lid m => ?_⟩
    have hremoved : st.removedBy (.storyDrop n) = x.lines := by simp only [Store.removedBy, hx]
    rw [hremoved, ← h.rundown.listedIn_iff hx]
    constructor
    · rintro ⟨y, hy, rfl, hl⟩
      obtain ⟨hy, hne⟩ := mem_withoutStory.1 hy
      have hlisted : listedIn st.rundown lid y.number := ⟨y, hy, rfl, hl⟩
      exact .inr ⟨fun hn => hne (h.listed_once hlisted hn), hlisted⟩
    · rintro (⟨hl, -⟩ | ⟨hnot, y, hy, rfl, hl⟩)
      · simp at hl
      · exact ⟨y, mem_withoutStory.2 ⟨hy, fun hn => hnot ⟨y, hy, hn, hl⟩⟩, rfl, hl⟩
  · cases hstruct

/-- The rundown without a story and with it again holds the same records (R15). -/
theorem withoutStory_cons_perm {r : List Story} (h : RundownSound r) {x : Story} (hx : x ∈ r) :
    (x :: withoutStory r x.number).Perm r := by
  obtain ⟨front, back, rfl⟩ := List.append_of_mem hx
  rw [withoutStory_at (numbers_around h.numbers)]
  exact List.perm_middle.symm

/-- STORY_MOVE (R15). -/
theorem StoreSound.move_took (h : StoreSound st q) {n : Nat} {a : Option Nat}
    (hstruct : st.structural (.storyMove n a) = none) :
    RundownTook st.rundown (st.rundownAfter (.storyMove n a) []) n (st.removedBy (.storyMove n a)) [] := by
  simp only [Store.structural, Store.storyCheck, failUnless, Option.or_eq_none_iff] at hstruct
  obtain ⟨⟨hstory, -⟩, -⟩ := hstruct
  split at hstory
  · next hsome =>
    obtain ⟨x, hx⟩ := Option.isSome_iff_exists.1 hsome
    obtain ⟨hmem, hn⟩ := Store.story?_mem hx
    have hperm : (st.rundownAfter (.storyMove n a) []).Perm st.rundown := by
      simp only [Store.rundownAfter, hx]
      exact (insertStory_perm _ a x).trans (hn ▸ withoutStory_cons_perm h.rundown hmem)
    refine ⟨(hperm.map _).nodup_iff.2 h.rundown.numbers, hperm.length_eq.trans_le h.rundown.stories,
      fun y hy => h.rundown.lines y (hperm.subset hy), fun y hy => h.rundown.once y (hperm.subset hy), fun lid m => ?_⟩
    rw [listedIn_perm hperm]
    simp [Store.removedBy]
  · cases hstory

/-! ### The pool after an apply (R10) -/

theorem linkLines_lids (pool : List PoolLine) (lids : List Nat) (n : Nat) :
    (linkLines pool lids n).map (·.lid) = pool.map (·.lid) := by
  simp only [linkLines, List.map_map]
  refine List.map_congr_left fun l _ => ?_
  simp only [Function.comp]
  split <;> rfl

/-- What holds of a slot after an apply: the lines of the entry are in use in the story, the lines removed are free, every
other slot is as it was (R10). -/
theorem Store.applied_holds (st : Store) (e : EditParams) (lids : List Nat) (lid : Nat) (o : Option Nat) :
    (st.applied e lids).holds lid o ↔ lid ∉ st.removedBy e ∧
      ((lid ∈ lids ∧ o = some (editStory e) ∧ ∃ p, st.holds lid p) ∨ (lid ∉ lids ∧ st.holds lid o)) := by
  simp only [Store.holds, Store.applied, linkLines, List.mem_map, List.mem_filter, Bool.not_eq_true', List.contains_eq_mem,
    decide_eq_false_iff_not, decide_eq_true_eq]
  constructor
  · rintro ⟨-, ⟨l, ⟨hl, hnot⟩, rfl⟩, hlid, ho⟩
    by_cases hm : l.lid ∈ lids
    · rw [if_pos hm] at hlid ho
      subst hlid ho
      exact ⟨hnot, .inl ⟨hm, rfl, l.story, l, hl, rfl, rfl⟩⟩
    · rw [if_neg hm] at hlid ho
      subst hlid ho
      exact ⟨hnot, .inr ⟨hm, l, hl, rfl, rfl⟩⟩
  · rintro ⟨hnot, ⟨hm, rfl, p, l, hl, rfl, rfl⟩ | ⟨hm, l, hl, rfl, rfl⟩⟩
    · exact ⟨_, ⟨l, ⟨hl, hnot⟩, rfl⟩, by rw [if_pos hm], by rw [if_pos hm]⟩
    · exact ⟨_, ⟨l, ⟨hl, hnot⟩, rfl⟩, by rw [if_neg hm], by rw [if_neg hm]⟩

/-- An entry that leaves the queue by apply, its checks passed, leaves store and queue in agreement (R10, R131). -/
theorem StoreSound.applied {before after : List Entry} {e : Entry} (h : StoreSound st (before ++ e :: after))
    (hstruct : st.structural e.edit = none) (hlimit : st.limit e.edit e.lids.length = none) :
    StoreSound (st.applied e.edit e.lids) (before ++ after) := by
  have hmem : e ∈ before ++ e :: after := by simp
  have hcount := h.queue.counts e hmem
  have hlids : e.lids.Nodup := by
    have honce := h.queue.once
    simp only [List.flatMap_append, List.flatMap_cons, List.nodup_append] at honce
    exact honce.2.1.1
  have hres (lid : Nat) (hl : lid ∈ e.lids) : st.holds lid none := (h.reserved lid).2 (List.mem_flatMap.2 ⟨e, hmem, hl⟩)
  have hnew (lid : Nat) (hl : lid ∈ e.lids) (m : Nat) : ¬ listedIn st.rundown lid m := fun hm =>
    absurd (h.pool.one_story (hres lid hl) ((h.inUse lid m).2 hm)) (by simp)
  have hkept (lid : Nat) (hl : lid ∈ st.removedBy e.edit) : lid ∉ e.lids := fun hm => hnew lid hm _ (h.removed_listed hl)
  have htook : RundownTook st.rundown (st.rundownAfter e.edit e.lids) (editStory e.edit) (st.removedBy e.edit) e.lids := by
    have hnone (hz : e.lids.length = 0) : e.lids = [] := List.length_eq_zero_iff.1 hz
    revert hstruct hlimit hcount
    cases e.edit with
    | linesReplace n f l => exact fun hs hl _ => h.replace_took hlids hnew hs hl
    | linesInsert n a => exact fun hs hl _ => h.insert_took hlids hnew hs hl
    | storyInsert n a slug t => exact fun hs hl hc => h.storyInsert_took hlids (of_decide_eq_true hc) hs hl
    | storyDrop n => exact fun hs _ hc => hnone (of_decide_eq_true hc) ▸ h.drop_took hs
    | storyMove n a => exact fun hs _ hc => hnone (of_decide_eq_true hc) ▸ h.move_took hs
  have hfiltered : PoolSound { st with pool := st.pool.filter (fun l => !(st.removedBy e.edit).contains l.lid) } :=
    h.pool.filter rfl rfl
  refine ⟨hfiltered.of_lids (linkLines_lids _ _ _) rfl, ⟨htook.numbers, htook.stories, htook.lines, htook.once⟩,
    h.queue.without, fun lid n => ?_, fun lid => ?_⟩
  · have hlisted : listedIn (st.applied e.edit e.lids).rundown lid n ↔ _ := htook.listed lid n
    rw [Store.applied_holds, hlisted, h.inUse]
    constructor
    · rintro ⟨hnot, ⟨hl, ho, -⟩ | ⟨-, hl⟩⟩
      · exact .inl ⟨hl, Option.some.inj ho⟩
      · exact .inr ⟨hnot, hl⟩
    · rintro (⟨hl, rfl⟩ | ⟨hnot, hl⟩)
      · exact ⟨fun hr => hkept lid hr hl, .inl ⟨hl, rfl, none, hres lid hl⟩⟩
      · exact ⟨hnot, .inr ⟨fun hm => hnew lid hm n hl, hl⟩⟩
  · rw [Store.applied_holds, h.reserved, h.queue.mem_without]
    constructor
    · rintro ⟨-, ⟨-, ho, -⟩ | ⟨hnot, hl⟩⟩
      · cases ho
      · exact ⟨hl, hnot⟩
    · rintro ⟨hl, hnot⟩
      refine ⟨fun hr => ?_, .inr ⟨hnot, hl⟩⟩
      have huse := (h.inUse lid _).2 (h.removed_listed hr)
      exact absurd (h.pool.one_story ((h.reserved lid).2 hl) huse) (by simp)

end

end Sys2Proof.Machine

/-! PROOFS. Store, commit queue and edit slots in agreement across a step (chapters 1 and 7). -/

namespace Sys2Proof.Machine

/-! ### Entries and slots (R120, R126) -/

/-- The edits that a link's entries in COPYING copy, with their line counts (R126). -/
def copiesOf (q : List Entry) (l : Link) : List (EditParams × Nat) :=
  (q.filter fun e => e.link = l && e.state = .copying).map (fun e => (e.edit, e.lids.length))

/-- A link's slot is COPYING with the edit of its one entry in COPYING, and its line count fits the kind (R120, R121). -/
def SlotsSound (q : List Entry) (slot : Link → EditSlot) : Prop :=
  ∀ l, (slot l).countOk = true ∧ copiesOf q l = (slot l).copies

theorem copiesOf_append (a b : List Entry) (l : Link) : copiesOf (a ++ b) l = copiesOf a l ++ copiesOf b l := by
  simp [copiesOf]

theorem copiesOf_cons (e : Entry) (q : List Entry) (l : Link) :
    copiesOf (e :: q) l = copiesOf [e] l ++ copiesOf q l := copiesOf_append [e] q l

/-- An entry that is not COPYING, or of the other link, copies nothing for a link. -/
theorem copiesOf_single_none {e : Entry} {l : Link} (h : e.state = .copying → e.link ≠ l) : copiesOf [e] l = [] := by
  have hfalse : (e.link = l && e.state = .copying : Bool) = false := by
    by_cases hs : e.state = .copying
    · simp [h hs]
    · simp [hs]
  simp only [copiesOf, List.filter_cons, List.filter_nil, hfalse]
  rfl

theorem copiesOf_single {e : Entry} (h : e.state = .copying) : copiesOf [e] e.link = [(e.edit, e.lids.length)] := by
  simp [copiesOf, h]

/-- Entries that copy what others did, one by one. -/
theorem copiesOf_forall₂ {q r : List Entry} (h : List.Forall₂ Reevaluates q r) (l : Link) : copiesOf r l = copiesOf q l := by
  induction h with
  | nil => rfl
  | @cons e f q r hef _ ih =>
    have hone : copiesOf [f] l = copiesOf [e] l := by
      obtain ⟨hf, hstate⟩ := hef
      have hlink : f.link = e.link := by rw [hf]
      have hedit : f.edit = e.edit := by rw [hf]
      have hlids : f.lids = e.lids := by rw [hf]
      simp [copiesOf, List.filter_cons, List.filter_nil, hlink, hstate, hedit, hlids, apply_ite (List.map _)]
    rw [copiesOf_cons f, copiesOf_cons e, hone, ih]

theorem forall₂_marks {q r : List Entry} (h : List.Forall₂ Reevaluates q r) :
    r.map (fun e => (e.key, e.edit, e.lids)) = q.map (fun e => (e.key, e.edit, e.lids)) := by
  induction h with
  | nil => rfl
  | @cons e f q r hef _ ih =>
    obtain ⟨hf, -⟩ := hef
    rw [List.map_cons, List.map_cons, ih, hf]
    rfl

/-- A copying slot's entry is its link's one entry in COPYING. -/
theorem SlotsSound.copying_alone {before after : List Entry} {e : Entry} {slot : Link → EditSlot}
    (h : SlotsSound (before ++ e :: after) slot) (he : e.state = .copying) :
    copiesOf before e.link = [] ∧ copiesOf after e.link = [] := by
  have hcopies := (h e.link).2
  rw [copiesOf_append, copiesOf_cons, copiesOf_single he] at hcopies
  have hlen := congrArg List.length hcopies
  have hle : (slot e.link).copies.length ≤ 1 := by cases slot e.link <;> simp [EditSlot.copies]
  simp only [List.length_append, List.length_cons, List.length_nil] at hlen
  exact ⟨List.length_eq_zero_iff.1 (by omega), List.length_eq_zero_iff.1 (by omega)⟩

/-! ### The queue split at an entry -/

/-- Taking out and changing an entry known by its key are done at its one place (R127). -/
theorem queue_at_entry {q : List Entry} (h : (q.map Entry.key).Nodup) {e : Entry} (he : e ∈ q) :
    ∃ before after, q = before ++ e :: after ∧ withoutEntry q e.link e.tag = before ++ after ∧
      ∀ f, changeEntry q e.link e.tag f = before ++ f e :: after := by
  obtain ⟨before, after, rfl⟩ := List.append_of_mem he
  have hne : ∀ x ∈ before ++ after, ¬(x.link = e.link ∧ x.tag = e.tag) := by
    simp only [List.map_append, List.map_cons, List.nodup_append, List.nodup_cons, List.mem_map, List.mem_cons] at h
    obtain ⟨-, ⟨hafter, -⟩, hbefore⟩ := h
    rintro x hx ⟨hlink, htag⟩
    have hkey : x.key = e.key := by simp [Entry.key, hlink, htag]
    rcases List.mem_append.1 hx with hx | hx
    · exact hbefore _ ⟨x, hx, rfl⟩ _ (.inl rfl) hkey
    · exact hafter ⟨x, hx, hkey⟩
  refine ⟨before, after, rfl, ?_, fun f => ?_⟩
  · have hfilter : (before ++ after).filter (fun x => !(x.link = e.link && x.tag = e.tag)) = before ++ after :=
      List.filter_eq_self.2 fun x hx => by
        simpa only [Bool.not_eq_true', Bool.and_eq_false_imp, decide_eq_true_eq, decide_eq_false_iff_not, not_and] using hne x hx
    simpa [withoutEntry] using hfilter
  · have hid (part : List Entry) (hpart : ∀ x ∈ part, x ∈ before ++ after) :
        part.map (fun x => if x.link = e.link ∧ x.tag = e.tag then f x else x) = part := by
      conv_rhs => rw [← List.map_id part]
      exact List.map_congr_left fun x hx => if_neg (hne x (hpart x hx))
    simp [changeEntry, hid before (by simp +contextual), hid after (by simp +contextual)]

/-! ### Store, queue and slots of a state -/

/-- Store, commit queue and edit slots of the state agree (R1, R3, R6, R7, R120, R127). -/
def State.Stored (s : State) : Prop := StoreSound s.scs s.ede.queue ∧ SlotsSound s.ede.queue s.slot

theorem RundownSound.order_nodup {st : Store} {q : List Entry} (h : StoreSound st q) : st.order.Nodup := by
  rw [Store.order, List.nodup_flatMap]
  refine ⟨h.rundown.once, ?_⟩
  have hpair : st.rundown.Pairwise fun x y => x.number ≠ y.number := List.pairwise_map.1 h.rundown.numbers
  refine List.Pairwise.imp_of_mem (fun {x y} hx hy hne => ?_) hpair
  intro lid hlx hly
  exact hne (h.listed_once ⟨x, hx, rfl, hlx⟩ ⟨y, hy, rfl, hly⟩)

theorem State.stored_iff (s : State) : s.Stored ↔ s.storeOk = true := by
  simp only [State.storeOk, Store.rundownOk, Store.linesOk, State.reservedOk, State.copyingOk,
    Bool.and_eq_true, decide_eq_true_eq, List.all_eq_true, List.any_eq_true, Option.all_eq_true, Bool.or_eq_true,
    List.contains_eq_mem, and_assoc]
  constructor
  · rintro ⟨h, hslots⟩
    have hcopies (l : Link) := (hslots l).2
    obtain ⟨hrising, hrange⟩ := h.pool
    obtain ⟨hnum, hstories, hlines, -⟩ := h.rundown
    obtain ⟨hkeys, hcounts, honce⟩ := h.queue
    refine ⟨hnum, hstories, hlines, RundownSound.order_nodup h, hrising, hrange, ?_, ?_,
      hkeys, hcounts, (hslots .console).1, (hslots .rundown).1, honce, ?_, ?_, fun l _ => hcopies l⟩
    · intro l hl n hn
      obtain ⟨x, hx, hnum, hmem⟩ := (h.inUse l.lid n).1 ⟨l, hl, rfl, hn⟩
      exact ⟨x, hx, hnum, hmem⟩
    · intro x hx lid hl
      obtain ⟨l, hl, hlid, hn⟩ := (h.inUse lid x.number).2 ⟨x, hx, rfl, hl⟩
      exact ⟨l, hl, hlid, hn⟩
    · intro lid hl
      obtain ⟨l, hl, hlid, hn⟩ := (h.reserved lid).2 hl
      exact ⟨l, hl, hlid, by simp [hn]⟩
    · intro l hl
      cases hstory : l.story with
      | some n => simp
      | none => exact .inr ((h.reserved l.lid).1 ⟨l, hl, rfl, hstory⟩)
  · rintro ⟨hnum, hstories, hlines, horder, hrising, hrange, huse, hlisted, hkeys, hcounts,
      hconsole, hrundown, honce, hres, hpool, hcopies⟩
    refine ⟨⟨⟨hrising, hrange⟩, ⟨hnum, hstories, hlines, (List.nodup_flatMap.1 horder).1⟩,
      ⟨hkeys, hcounts, honce⟩, fun lid n => ⟨?_, ?_⟩, fun lid => ⟨?_, ?_⟩⟩, fun l => ⟨by cases l; exacts [hconsole, hrundown],
      hcopies l (by cases l <;> simp)⟩⟩
    · rintro ⟨l, hl, rfl, hn⟩
      obtain ⟨x, hx, hnum, hmem⟩ := huse l hl n hn
      exact ⟨x, hx, hnum, hmem⟩
    · rintro ⟨x, hx, rfl, hl⟩
      obtain ⟨l, hl, hlid, hn⟩ := hlisted x hx lid hl
      exact ⟨l, hl, hlid, hn⟩
    · rintro ⟨l, hl, rfl, hn⟩
      rcases hpool l hl with hsome | hmem
      · simp [hn] at hsome
      · exact hmem
    · intro hl
      obtain ⟨l, hl, hlid, hn⟩ := hres lid hl
      exact ⟨l, hl, hlid, by simpa using hn⟩

/-- A state whose store, queue and slots are those of another. -/
theorem State.Stored.of_same {s t : State} (h : s.Stored) (hscs : t.scs = s.scs) (hede : EditsKept s.ede t.ede) :
    t.Stored := by
  obtain ⟨hq, hc, hr⟩ := hede
  have hslot : t.slot = s.slot := by
    funext l
    cases l
    exacts [hc, hr]
  unfold State.Stored
  rw [hscs, hq, hslot]
  exact h

theorem dependsOn_stored : DependsOn [.scs, .ede] State.Stored := by
  intro s t h hs
  have hscs : t.scs = s.scs := h .scs (by simp)
  have hede : t.ede = s.ede := h .ede (by simp)
  exact hs.of_same hscs (hede ▸ .refl _)

/-- What is stored with queue and slots replaced. -/
theorem State.stored_of {s : State} {q : List Entry} (h : StoreSound s.scs q) (hslots : SlotsSound q s.slot) :
    (s.setQueue q).Stored := ⟨h, hslots⟩

/-- A slot written that is not COPYING before nor after (R121 to R123). -/
theorem State.Stored.setSlot {s : State} (h : s.Stored) {l : Link} (hold : (s.slot l).copies = []) {x : EditSlot}
    (hcount : x.countOk = true) (hnew : x.copies = []) : (s.setSlot l x).Stored := by
  refine ⟨?_, fun m => ?_⟩
  · rw [State.setSlot_scs, State.setSlot_queue]
    exact h.1
  · rw [State.setSlot_queue, State.setSlot_slot]
    split
    · next hm => exact ⟨hcount, hm ▸ ((h.2 l).2.trans (hold.trans hnew.symm))⟩
    · exact h.2 m

theorem State.dropEntry_scs (s : State) (e : Entry) (c : Cause) : (s.dropEntry e c).scs = s.scs.release e.lids := by
  simp [State.dropEntry]

theorem State.applyEntry_scs (s : State) (e : Entry) : (s.applyEntry e).scs = s.scs.applied e.edit e.lids := by
  simp [State.applyEntry, State.takeReport, Store.report]

/-- The entry out of the queue, what is left of the slots' entries. -/
theorem SlotsSound.without {before after : List Entry} {e : Entry} {slot : Link → EditSlot}
    (h : SlotsSound (before ++ e :: after) slot) (he : e.state ≠ .copying) : SlotsSound (before ++ after) slot := by
  intro l
  have hl := h l
  rwa [copiesOf_append, copiesOf_cons, copiesOf_single_none fun hs => absurd hs he, List.nil_append,
    ← copiesOf_append] at hl

/-- An entry not COPYING dropped from the queue, the slots the same (R4, R133). -/
theorem State.dropEntry_stored {s u : State} {before after : List Entry} {e : Entry}
    (h : StoreSound s.scs (before ++ e :: after)) (hslots : SlotsSound (before ++ after) s.slot) (c : Cause)
    (hu : u.scs = s.scs) (hq : u.ede.queue = before ++ after) (hslot : u.slot = s.slot) : (u.dropEntry e c).Stored := by
  have hsound : StoreSound (u.scs.release e.lids) u.ede.queue := by
    rw [hu, hq]
    exact h.release
  obtain ⟨hqueue, hconsole, hrundown⟩ := (u.dropEntry_passes e c).edits
  have hslots' : (u.dropEntry e c).slot = u.slot := by
    funext l
    cases l
    exacts [hconsole, hrundown]
  refine ⟨?_, ?_⟩
  · rw [State.dropEntry_scs, hqueue]
    exact hsound
  · rw [hqueue, hslots', hq, hslot]
    exact hslots

/-- An entry not COPYING applied, its checks passed (R10, R133). -/
theorem State.applyEntry_stored {s : State} {before after : List Entry} {e : Entry}
    (h : StoreSound s.scs (before ++ e :: after)) (hslots : SlotsSound (before ++ after) s.slot)
    (hcheck : s.entryChecks e.link e.edit e.lids.length = none) :
    ((s.setQueue (before ++ after)).applyEntry e).Stored := by
  simp only [State.entryChecks, Option.or_eq_none_iff] at hcheck
  obtain ⟨⟨hstruct, -⟩, hlimit⟩ := hcheck
  have hsound := h.applied hstruct hlimit
  obtain ⟨hqueue, hconsole, hrundown⟩ := ((s.setQueue (before ++ after)).applyEntry_passes e).edits
  have hslots' : ((s.setQueue (before ++ after)).applyEntry e).slot = s.slot := by
    funext l
    cases l
    exacts [hconsole, hrundown]
  refine ⟨?_, ?_⟩
  · rw [State.applyEntry_scs, hqueue]
    exact hsound
  · rw [hqueue, hslots']
    exact hslots

/-! ### Pass, copy, commit, cancel and force -/

/-- The entries before one taken out, evaluated again (R131). -/
theorem State.Stored.reevaluated {s : State} {before before' after : List Entry} (h : s.Stored)
    (hq : s.ede.queue = before ++ after) (hall : List.Forall₂ Reevaluates before before') :
    StoreSound s.scs (before' ++ after) ∧ SlotsSound (before' ++ after) s.slot := by
  obtain ⟨hsound, hslots⟩ := h
  rw [hq] at hsound hslots
  refine ⟨hsound.changed ?_, fun l => ?_⟩
  · rw [List.map_append, List.map_append, forall₂_marks hall]
  · have hl := hslots l
    rwa [copiesOf_append, ← copiesOf_forall₂ hall, ← copiesOf_append] at hl

theorem State.pass_stored {s : State} (h : s.Stored) : s.pass.Stored := by
  have hends := s.pass_ends
  generalize s.pass = t at hends
  generalize hq : s.ede.queue = q at hends
  have hnoted {u : State} (hu : Noted s u) : u.scs = s.scs ∧ u.slot = s.slot := by
    have hede : u.ede = s.ede := hu .ede (by decide)
    exact ⟨hu .scs (by decide), by funext l; cases l <;> simp [State.slot, hede]⟩
  cases hends with
  | kept u q' hu hall =>
    obtain ⟨hscs, hslot⟩ := hnoted hu
    have hkept := h.reevaluated (after := []) (by simpa using hq) hall
    rw [List.append_nil] at hkept
    exact State.stored_of (by rw [hscs]; exact hkept.1) (by rw [hslot]; exact hkept.2)
  | removed u before before' after e cause detail hu hrest hall he =>
    obtain ⟨hscs, hslot⟩ := hnoted hu
    obtain ⟨hsound, hslots⟩ := h.reevaluated (hq.trans hrest) hall
    exact State.dropEntry_stored hsound (hslots.without he) cause (by simpa using hscs) (by simp) hslot
  | applied u before before' after e hu hrest hall he _ hcheck =>
    obtain ⟨hscs, hslot⟩ := hnoted hu
    obtain ⟨hsound, hslots⟩ := h.reevaluated (hq.trans hrest) hall
    rw [← hscs] at hsound
    rw [← hslot] at hslots
    exact State.applyEntry_stored hsound (hslots.without he) hcheck

/-- A completed copy, before its entry is removed or goes into the pass: the page in its lines, the slot CLOSED (R128). -/
theorem State.pageCopied_stored {s : State} (h : s.Stored) (page : Page) {e : Entry} (he : e ∈ s.ede.queue)
    (hstate : e.state = .copying) :
    (∃ before after, withoutEntry s.ede.queue e.link e.tag = before ++ after ∧
      StoreSound (s.pageCopied e.link page e).scs (before ++ e :: after) ∧
      SlotsSound (before ++ after) (s.pageCopied e.link page e).slot) ∧
    ((s.pageCopied e.link page e).setQueue
      (changeEntry s.ede.queue e.link e.tag fun x => { x with state := .waiting })).Stored := by
  obtain ⟨hsound, hslots⟩ := h
  obtain ⟨before, after, hq, hwithout, hchange⟩ := queue_at_entry hsound.queue.keys he
  have hscs : (s.pageCopied e.link page e).scs = s.scs.writePage e.lids page := by simp [State.pageCopied]
  have hpage := hsound.writePage e.lids page
  rw [hq, ← hscs] at hpage
  rw [hq] at hslots
  obtain ⟨hbefore, hafter⟩ := hslots.copying_alone hstate
  have hslot (l : Link) : (s.pageCopied e.link page e).slot l = if l = e.link then .closed else s.slot l := by
    rw [State.pageCopied, State.setSlot_slot]
    rfl
  have hclosed (x : List Entry) (hx : ∀ l ≠ e.link, copiesOf x l = copiesOf [e] l) (hx' : copiesOf x e.link = []) :
      SlotsSound (before ++ (x ++ after)) (s.pageCopied e.link page e).slot := by
    intro l
    rw [hslot]
    split
    · next hl =>
      subst hl
      rw [copiesOf_append, copiesOf_append, hbefore, hafter, hx']
      exact ⟨rfl, rfl⟩
    · next hl =>
      have hkept := hslots l
      rw [copiesOf_append, copiesOf_cons] at hkept
      rw [copiesOf_append, copiesOf_append, hx l hl]
      exact hkept
  refine ⟨⟨before, after, hwithout, hpage, ?_⟩, ?_⟩
  · exact hclosed [] (fun l hl => (copiesOf_single_none fun _ => hl.symm).symm) rfl
  · rw [hchange]
    refine State.stored_of (hpage.changed (by simp [Entry.key])) ?_
    exact hclosed [_] (fun l hl => (copiesOf_single_none fun hs => by cases hs).trans
      (copiesOf_single_none fun _ => hl.symm).symm) (copiesOf_single_none fun hs => by cases hs)

/-- The copy of a link's entry in COPYING completes (R128). -/
theorem State.copyDone_stored {s : State} (h : s.Stored) (page : Page) {e : Entry} (he : e ∈ s.ede.queue)
    (hstate : e.state = .copying) : (s.copyDone e.link page e).Stored := by
  obtain ⟨⟨before, after, hwithout, hsound, hslots⟩, hwaiting⟩ := State.pageCopied_stored h page he hstate
  rw [State.copyDone_eq, hwithout]
  split
  · exact State.dropEntry_stored hsound hslots .cancelled rfl rfl rfl
  · exact State.pass_stored hwaiting

/-- A commit accepted (R126). -/
theorem State.acceptCommit_stored {s : State} (h : s.Stored) {l : Link} {tag : Byte} {e : EditParams} {n : Nat}
    {page page' : Page} (hcounter : n ≠ 0 → 1 ≤ s.scs.nextLid) (hslot : s.slot l = .opened e n page)
    (hchecks : s.commitChecks l tag e n page = none)
    {st : Store} {lids : List Nat} (hr : s.scs.reserve n = .ok (st, lids)) :
    (s.acceptCommit l tag e n page' st lids).Stored := by
  obtain ⟨hsound, hslots⟩ := h
  have hcount : countInRange e n = true := by simpa [hslot, EditSlot.countOk] using (hslots l).1
  have hlen : lids.length = n := by simp [(Store.reserve_ok hr).2.2.1]
  have hkey : (newEntry l tag e lids).key ∉ s.ede.queue.map Entry.key := by
    simp only [State.commitChecks, Option.or_eq_none_iff, failUnless] at hchecks
    obtain ⟨⟨-, hdup⟩, -⟩ := hchecks
    split at hdup
    · next hnone =>
      intro hm
      obtain ⟨x, hx, hkey⟩ := List.mem_map.1 hm
      simp only [Bool.not_eq_true', List.any_eq_false] at hnone
      simp only [Entry.key, newEntry, Prod.mk.injEq] at hkey
      exact hnone x hx (by simp [hkey])
    · cases hdup
  have hreserved := hsound.reserve (e := newEntry l tag e lids) hr hcounter hkey hcount
  refine ⟨?_, fun m => ?_⟩
  · rw [State.acceptCommit_queue]
    simpa [State.acceptCommit] using hreserved
  · rw [State.acceptCommit_queue, State.acceptCommit, State.setSlot_slot, copiesOf_append]
    split
    · next hm =>
      subst hm
      have hnone := (hslots m).2
      rw [hslot] at hnone
      rw [hnone, show copiesOf [newEntry m tag e lids] m = _ from copiesOf_single rfl]
      exact ⟨hcount, by simp [EditSlot.copies, newEntry, hlen]⟩
    · next hm =>
      rw [copiesOf_single_none (e := newEntry l tag e lids) fun _ => fun hl => hm hl.symm, List.append_nil]
      exact hslots m

theorem doEcmt_stored {s : State} (h : s.Stored) (hcounter : 1 ≤ s.scs.nextLid) (l : Link) (tag : Byte) :
    (doEcmt l tag s).1.Stored := by
  unfold doEcmt
  split
  · next e n page hslot =>
    split
    · exact h.of_same rfl ⟨rfl, rfl, rfl⟩
    · next hchecks =>
      split
      · exact h.of_same rfl ⟨rfl, rfl, rfl⟩
      · next st lids hr =>
        have haccept := State.acceptCommit_stored (page' := page) h (fun _ => hcounter) hslot hchecks hr
        unfold State.startCopy
        dsimp only
        split
        · exact State.copyDone_stored (e := newEntry l tag e lids) haccept page (by simp) rfl
        · exact haccept
  · exact h.of_same rfl ⟨rfl, rfl, rfl⟩

/-- An entry changed in its marks, COPYING exactly where it was. -/
theorem State.Stored.changeEntry {s : State} (h : s.Stored) {e : Entry} (he : e ∈ s.ede.queue) {f : Entry → Entry}
    (hmarks : ((f e).key, (f e).edit, (f e).lids) = (e.key, e.edit, e.lids))
    (hcopies : ∀ l, copiesOf [f e] l = copiesOf [e] l) :
    (s.setQueue (Machine.changeEntry s.ede.queue e.link e.tag f)).Stored := by
  obtain ⟨hsound, hslots⟩ := h
  obtain ⟨before, after, hq, -, hchange⟩ := queue_at_entry hsound.queue.keys he
  rw [hchange]
  rw [hq] at hslots
  refine State.stored_of (hsound.changed ?_) fun l => ?_
  · rw [hq, List.map_append, List.map_append, List.map_cons, List.map_cons, hmarks]
  · have hl := hslots l
    rw [copiesOf_append, copiesOf_cons] at hl ⊢
    rw [hcopies]
    exact hl

theorem State.cancelEntry_stored {s : State} (h : s.Stored) {e : Entry} (he : e ∈ s.ede.queue) :
    (s.cancelEntry e).1.Stored := by
  unfold State.cancelEntry
  split
  · exact h.changeEntry he rfl fun l => by simp [copiesOf, List.filter_cons, apply_ite (List.map _)]
  · next hstate =>
    obtain ⟨hsound, hslots⟩ := h
    obtain ⟨before, after, hq, hwithout, -⟩ := queue_at_entry hsound.queue.keys he
    rw [hwithout]
    rw [hq] at hsound hslots
    exact State.dropEntry_stored hsound (hslots.without hstate) .cancelled rfl rfl rfl

theorem State.forceEntry_stored {s : State} (h : s.Stored) {e : Entry} (he : e ∈ s.ede.queue) (hstate : e.state = .deferred)
    (l : Link) : (s.forceEntry l e).1.Stored := by
  have hne : e.state ≠ .copying := by simp [hstate]
  unfold State.forceEntry
  dsimp only
  split
  · refine (h.changeEntry he rfl fun m => ?_).of_same rfl ⟨rfl, rfl, rfl⟩
    exact (copiesOf_single_none fun hs => by cases hs).trans (copiesOf_single_none fun hs => absurd hs hne).symm
  · obtain ⟨hsound, hslots⟩ := h
    obtain ⟨before, after, hq, hwithout, -⟩ := queue_at_entry hsound.queue.keys he
    rw [hwithout]
    rw [hq] at hsound hslots
    split
    · next cause detail _ =>
      have hdropped : ((s.setQueue (before ++ after)).dropEntry e cause).Stored :=
        State.dropEntry_stored hsound (hslots.without hne) cause rfl rfl rfl
      exact hdropped.of_same rfl ⟨rfl, rfl, rfl⟩
    · next hcheck => exact State.applyEntry_stored hsound (hslots.without hne) hcheck

/-- A rundown whose records differ in slug, target and overrun flag at most (R114, R139). -/
theorem StoreSound.of_rundown {st : Store} {q : List Entry} (h : StoreSound st q) {r : List Story}
    (hr : r.map (fun x => (x.number, x.lines)) = st.rundown.map (fun x => (x.number, x.lines))) :
    StoreSound { st with rundown := r } q := by
  have hmem {x : Story} (hx : x ∈ r) : ∃ y ∈ st.rundown, y.number = x.number ∧ y.lines = x.lines := by
    have hpair : (x.number, x.lines) ∈ st.rundown.map (fun x => (x.number, x.lines)) := hr ▸ List.mem_map_of_mem hx
    obtain ⟨y, hy, heq⟩ := List.mem_map.1 hpair
    simp only [Prod.mk.injEq] at heq
    exact ⟨y, hy, heq.1, heq.2⟩
  have hmem' {y : Story} (hy : y ∈ st.rundown) : ∃ x ∈ r, x.number = y.number ∧ x.lines = y.lines := by
    have hpair : (y.number, y.lines) ∈ r.map (fun x => (x.number, x.lines)) := hr ▸ List.mem_map_of_mem hy
    obtain ⟨x, hx, heq⟩ := List.mem_map.1 hpair
    simp only [Prod.mk.injEq] at heq
    exact ⟨x, hx, heq.1, heq.2⟩
  have hlisted (lid n : Nat) : listedIn r lid n ↔ listedIn st.rundown lid n := by
    constructor
    · rintro ⟨x, hx, rfl, hl⟩
      obtain ⟨y, hy, hn, hlines⟩ := hmem hx
      exact ⟨y, hy, hn, hlines ▸ hl⟩
    · rintro ⟨y, hy, rfl, hl⟩
      obtain ⟨x, hx, hn, hlines⟩ := hmem' hy
      exact ⟨x, hx, hn, hlines ▸ hl⟩
  have hnumbers : r.map (·.number) = st.rundown.map (·.number) := by
    have hfst := congrArg (List.map Prod.fst) hr
    simpa [List.map_map, Function.comp_def] using hfst
  have hlen : r.length = st.rundown.length := by simpa using congrArg List.length hr
  refine ⟨⟨h.pool.rising, h.pool.range⟩, ⟨?_, ?_, fun x hx => ?_, fun x hx => ?_⟩, h.queue,
    fun lid n => (h.inUse lid n).trans (hlisted lid n).symm, h.reserved⟩
  · rw [hnumbers]; exact h.rundown.numbers
  · rw [hlen]; exact h.rundown.stories
  · obtain ⟨y, hy, -, hlines⟩ := hmem hx
    exact hlines ▸ h.rundown.lines y hy
  · obtain ⟨y, hy, -, hlines⟩ := hmem hx
    exact hlines ▸ h.rundown.once y hy

theorem setTarget_lines (r : List Story) (n : Nat) (t : Option Nat) :
    (setTarget r n t).map (fun x => (x.number, x.lines)) = r.map (fun x => (x.number, x.lines)) := by
  simp only [setTarget, List.map_map]
  refine List.map_congr_left fun x _ => ?_
  simp only [Function.comp]
  split <;> rfl

theorem markOverrun_lines (r : List Story) (n : Nat) :
    (markOverrun r n).map (fun x => (x.number, x.lines)) = r.map (fun x => (x.number, x.lines)) := by
  simp only [markOverrun, List.map_map]
  refine List.map_congr_left fun x _ => ?_
  simp only [Function.comp]
  split <;> rfl

/-! ### Requests and events -/

theorem reset_stored (now : Nat) (mem : List Host.Cell) (pending : List Instr) :
    (State.resetAt now mem pending).Stored := by
  have hempty : (State.resetAt 0 [] []).Stored := (State.stored_iff _).2 (by decide)
  exact hempty.of_same rfl ⟨rfl, rfl, rfl⟩

theorem serve_stored {s : State} (h : s.Stored) (hcounter : 1 ≤ s.scs.nextLid) (l : Link) (tag : Byte) (r : Request) :
    (serve l tag r s).1.Stored := by
  by_cases hr : editRequest r = false
  · have hkept := serve_edits hr l tag s
    exact h.of_same hkept.1 hkept.2
  cases r with
  | clrs =>
    have hempty : ({ s with scs := Store.empty, ede := s.ede.clearShow } : State).Stored :=
      (reset_stored 0 [] []).of_same rfl ⟨rfl, rfl, rfl⟩
    exact hempty.of_same (by simp [serve, answered, doClrs, State.clearShow, State.takeReport, Store.clearReport])
      (State.takeClear_passes _).edits
  | eopn e n =>
    simp only [serve, answered, doEopn]
    split
    · exact h
    · split
      · next e hrange =>
        simp only [Bool.and_eq_true] at hrange
        have hcount : countInRange (takenEdit e) n = true := by cases e <;> exact hrange.2
        split
        · exact h
        · next hslot =>
          refine h.setSlot ?_ hcount rfl
          cases hs : s.slot l with
          | copying e n p => exact absurd hs (hslot e n p)
          | _ => rfl
      · exact h
  | elin k st m c tx =>
    simp only [serve, answered, doElin]
    split
    · next e n page hslot =>
      have hcount : countInRange e n = true := by simpa [hslot, EditSlot.countOk] using (h.2 l).1
      split
      · split
        · exact h.setSlot (by rw [hslot]; rfl) hcount rfl
        · exact h
      · exact h
    · exact h.of_same rfl ⟨rfl, rfl, rfl⟩
  | eabn =>
    simp only [serve, answered, doEabn]
    split
    · next hslot => exact h.setSlot (by rw [hslot]; rfl) rfl rfl
    · exact h
    · exact h
  | ecmt => exact doEcmt_stored h hcounter l tag
  | qcan el et =>
    simp only [serve, answered, doQcan]
    (repeat' split)
    · exact h
    · exact h
    · exact h.of_same rfl ⟨rfl, rfl, rfl⟩
    · next e he => exact State.cancelEntry_stored h (List.mem_of_find?_eq_some he)
  | qfrc el et =>
    simp only [serve, answered, doQfrc]
    (repeat' split)
    · exact h
    · exact h.of_same rfl ⟨rfl, rfl, rfl⟩
    · next e he hstate => exact State.forceEntry_stored h (List.mem_of_find?_eq_some he) hstate l
    · exact h.of_same rfl ⟨rfl, rfl, rfl⟩
  | tgts n t =>
    simp only [serve, answered, doTgts]
    (repeat' split)
    · exact h.of_same rfl ⟨rfl, rfl, rfl⟩
    · exact h.of_same rfl ⟨rfl, rfl, rfl⟩
    · exact ⟨h.1.of_rundown (setTarget_lines _ _ _), h.2⟩
  | _ => exact absurd rfl hr

theorem State.backTime_stored {s : State} (h : s.Stored) : s.backTime.Stored := by
  unfold State.backTime
  split
  · split
    · next x _ =>
      have hmark : ({ s with scs := { s.scs with rundown := markOverrun s.scs.rundown x.number } } : State).Stored :=
        ⟨h.1.of_rundown (markOverrun_lines _ _), h.2⟩
      exact hmark.of_same (by simp) (by simpa using EditsKept.refl s.ede)
    · exact h
  · exact h

theorem exec_stored {c : Instr} {s : State} (h : s.Stored) (hb : apart [.scs, .ede] (eventBlocks c) = false) :
    Ends State.Stored (exec c s) := by
  have hother (hc : editEvent c = false) (hede : apart [.ede] (eventBlocks c) = false)
      (hcarry : carriesRequest c = false) (hscs : apart [.scs] (eventBlocks c) = true) : Ends State.Stored (exec c s) := by
    obtain ⟨u, hu, hkept⟩ := exec_edits hc hede s
    obtain ⟨v, hv, hsame⟩ := exec_event_sameBut hcarry s
    have hsettled : v.settle = u.settle := Host.Outcome.next.inj (hv.symm.trans hu)
    have hede : v.ede = u.ede := congrArg (·.ede) hsettled
    rw [hv]
    have hscs : v.scs = s.scs := hsame .scs (by simpa [apart] using hscs)
    exact ends_finish (h.of_same hscs (hede ▸ hkept))
  cases c with
  | resetLine n => exact ends_finish (reset_stored _ _ _)
  | showTimeTick =>
    have hticked : s.showTimeTickTaken.advanceClock.fireTimers.Stored := h.of_same (by simp) (by simpa using EditsKept.refl s.ede)
    exact ends_finish (State.backTime_stored hticked)
  | copyCompletion l =>
    dsimp only [exec, execCopyCompletion]
    split
    · next e n page hslot =>
      split
      · next x hx =>
        have hmem := List.mem_of_find?_eq_some hx
        have hprop := List.find?_some hx
        simp only [Bool.and_eq_true, decide_eq_true_eq] at hprop
        exact ends_finish (hprop.1 ▸ State.copyDone_stored h page hmem hprop.2)
      · next hnone =>
        have hcopies := (h.2 l).2
        have hfilter : copiesOf s.ede.queue l = [] := by
          rw [copyingEntry?, List.find?_eq_none] at hnone
          simp only [copiesOf, List.map_eq_nil_iff, List.filter_eq_nil_iff]
          exact hnone
        rw [hfilter, hslot] at hcopies
        cases hcopies
    · exact ends_finish h
  | queuePass => exact ends_finish (State.pass_stored (s := s.passTaken) (h.of_same rfl ⟨rfl, rfl, rfl⟩))
  | loadCompletion | settingsLoadTimeout | scrollStep => exact hother rfl rfl rfl rfl
  | _ => cases hb

/-! ### Slots and LID counter (R1, R3, R4) -/

/-- The pool has no more lines, and the counter stands: what everything but a reservation does (R3, R4). -/
def Narrows (st u : Store) : Prop := u.pool.length ≤ st.pool.length ∧ u.nextLid = st.nextLid

theorem Narrows.refl (st : Store) : Narrows st st := ⟨le_rfl, rfl⟩

theorem Narrows.trans {st u v : Store} (h : Narrows st u) (k : Narrows u v) : Narrows st v :=
  ⟨k.1.trans h.1, k.2.trans h.2⟩

theorem Narrows.fits {st u : Store} (h : Narrows st u) (hs : st.Fits) : u.Fits := by
  obtain ⟨hsize, hlow, hhigh⟩ := hs
  unfold Store.Fits
  rw [h.2]
  exact ⟨h.1.trans hsize, hlow, hhigh⟩

theorem State.dropEntry_narrows (s : State) (e : Entry) (c : Cause) : Narrows s.scs (s.dropEntry e c).scs := by
  rw [State.dropEntry_scs]
  exact ⟨List.length_filter_le _ _, rfl⟩

theorem State.applyEntry_narrows (s : State) (e : Entry) : Narrows s.scs (s.applyEntry e).scs := by
  rw [State.applyEntry_scs]
  refine ⟨?_, rfl⟩
  simp only [Store.applied, linkLines, List.length_map]
  exact List.length_filter_le _ _

theorem State.pass_narrows (s : State) : Narrows s.scs s.pass.scs := by
  have hends := s.pass_ends
  generalize s.pass = t at hends
  have hnoted {u : State} (hu : Noted s u) : u.scs = s.scs := hu .scs (by decide)
  cases hends with
  | kept u q hu => exact hnoted hu ▸ .refl _
  | removed u before before' after e cause detail hu => exact hnoted hu ▸ State.dropEntry_narrows _ e cause
  | applied u before before' after e hu => exact hnoted hu ▸ State.applyEntry_narrows _ e

theorem State.copyDone_narrows (s : State) (l : Link) (page : Page) (e : Entry) :
    Narrows s.scs (s.copyDone l page e).scs := by
  have hpage : Narrows s.scs (s.pageCopied l page e).scs := by
    rw [State.pageCopied, State.setSlot_scs]
    exact ⟨by simp [Store.writePage], rfl⟩
  rw [State.copyDone_eq]
  split
  · exact hpage.trans (State.dropEntry_narrows _ _ _)
  · exact hpage.trans (State.pass_narrows _)

theorem Store.reserve_fits {st u : Store} {n : Nat} {lids : List Nat} (h : st.Fits) (hr : st.reserve n = .ok (u, lids)) :
    u.Fits := by
  obtain ⟨hfree, hmax, hlids, rfl⟩ := Store.reserve_ok hr
  obtain ⟨hsize, hlow, hhigh⟩ := h
  simp only [Store.free] at hfree
  refine ⟨?_, by show 1 ≤ st.nextLid + n; omega, by show st.nextLid + n ≤ _; omega⟩
  simp only [hlids, List.length_append, List.length_map, List.length_range]
  omega

theorem doEcmt_fits {s : State} (h : s.scs.Fits) (l : Link) (tag : Byte) : (doEcmt l tag s).1.scs.Fits := by
  unfold doEcmt
  split
  · next e n page _ =>
    split
    · exact h
    · split
      · exact h
      · next st lids hr =>
        have haccept : (s.acceptCommit l tag e n page st lids).scs.Fits := by
          simpa [State.acceptCommit] using Store.reserve_fits h hr
        unfold State.startCopy
        dsimp only
        split
        · exact (State.copyDone_narrows ..).fits haccept
        · exact haccept
  · exact h

theorem Store.empty_fits : Store.empty.Fits := ⟨by decide, by decide, by decide⟩

theorem serve_fits {s : State} (h : s.scs.Fits) (l : Link) (tag : Byte) (r : Request)
    (hb : apart [.scs] (ownerBlocks r) = false) : (serve l tag r s).1.scs.Fits := by
  cases r with
  | clrs =>
    have hempty : (serve l tag .clrs s).1.scs = Store.empty := by
      simp [serve, answered, doClrs, State.clearShow, State.takeReport, Store.clearReport]
    rw [hempty]
    exact Store.empty_fits
  | ecmt => exact doEcmt_fits h l tag
  | qcan el et =>
    simp only [serve, answered, doQcan]
    (repeat' split)
    · exact h
    · exact h
    · exact h
    · unfold State.cancelEntry
      split
      · exact h
      · exact (State.dropEntry_narrows _ _ _).fits h
  | qfrc el et =>
    simp only [serve, answered, doQfrc]
    (repeat' split)
    · exact h
    · exact h
    · unfold State.forceEntry
      dsimp only
      (repeat' split)
      · exact h
      · exact (State.dropEntry_narrows _ _ _).fits h
      · exact (State.applyEntry_narrows _ _).fits h
    · exact h
  | tgts n t =>
    simp only [serve, answered, doTgts]
    (repeat' split) <;> exact h
  | _ => cases hb

theorem State.backTime_narrows (s : State) : Narrows s.scs s.backTime.scs := by
  unfold State.backTime
  (repeat' split)
  · simp [Narrows]
  · exact .refl _
  · exact .refl _

theorem exec_fits {c : Instr} {s : State} (h : s.scs.Fits) (hb : apart [.scs] (eventBlocks c) = false) :
    Ends (fun u => u.scs.Fits) (exec c s) := by
  cases c with
  | resetLine n => exact ends_finish Store.empty_fits
  | showTimeTick =>
    have hticked : s.showTimeTickTaken.advanceClock.fireTimers.scs.Fits := by simpa using h
    exact ends_finish ((State.backTime_narrows _).fits hticked)
  | copyCompletion l =>
    dsimp only [exec, execCopyCompletion]
    (repeat' split)
    · exact ends_finish ((State.copyDone_narrows ..).fits h)
    · exact ends_finish (by simpa using h)
    · exact ends_finish h
  | queuePass => exact ends_finish ((State.pass_narrows s.passTaken).fits h)
  | _ => cases hb

theorem dependsOn_fits : DependsOn [.scs] (fun s => s.scs.Fits) := by
  intro s t h hs
  have hscs : t.scs = s.scs := h .scs (by simp)
  rwa [hscs]

theorem State.fits_iff (s : State) : s.scs.Fits ↔ s.poolOk = true := by
  simp only [State.poolOk, Store.Fits, Bool.and_eq_true, decide_eq_true_eq, and_assoc]

/-- Settles O6: pool, rundown, queue and slots in one invariant, kept by reservation, release, page copy and each apply. -/
theorem stepKeepsStore : Obligations.StepKeepsStore := by
  intro s t hpool hstore ht
  have hfits := s.fits_iff.2 hpool
  have hkept : t.scs.Fits := step_keeps dependsOn_fits (by decide) (fun _ _ h => h)
    (fun l tag r _ _ hb h => serve_fits h l tag r hb) (fun _ _ _ hb h => exec_fits h hb) s t hfits ht
  have hstored : t.Stored := by
    refine step_leads (P := fun s => s.scs.Fits ∧ s.Stored) (ps := [.scs, .ede]) (fun u v h hu => ?_) (by decide)
      dependsOn_stored (by decide) (fun _ h => h.2) (fun _ _ h => ⟨h.1, h.2.of_same rfl ⟨rfl, rfl, rfl⟩⟩)
      (fun l tag r _ _ _ h => serve_stored h.2 h.1.2.1 l tag r) (fun _ _ _ hb h => exec_stored h.2 hb) s t
      ⟨hfits, s.stored_iff.2 hstore⟩ ht
    exact ⟨dependsOn_fits u v (fun b hb => h b (by revert hb; simp; tauto)) hu.1, dependsOn_stored u v h hu.2⟩
  exact ⟨t.fits_iff.1 hkept, t.stored_iff.1 hstored⟩

end Sys2Proof.Machine

/-! PROOFS. What the five edits make of line lists and rundown (R10 to R15). -/

namespace Sys2Proof.Machine

/-! ### Line lists cut at a span (R11, R12) -/

theorem idxOf_at {before rest : List Nat} {x : Nat} (h : x ∉ before) : (before ++ x :: rest).idxOf x = before.length := by
  rw [List.idxOf_append_of_notMem h, List.idxOf_cons_self, Nat.add_zero]

/-- A span with its first and last line, in a list with no line twice. -/
theorem idxOf_span {before span rest : List Nat} {f g : Nat} (h : (before ++ span ++ rest).Nodup)
    (hf : span.head? = some f) (hg : span.getLast? = some g) :
    (before ++ span ++ rest).idxOf f = before.length ∧
      (before ++ span ++ rest).idxOf g + 1 = before.length + span.length := by
  obtain ⟨tail, rfl⟩ := List.head?_eq_some_iff.1 hf
  obtain ⟨init, hinit⟩ := List.getLast?_eq_some_iff.1 hg
  constructor
  · have hnot : f ∉ before := fun hm => by
      rw [List.append_assoc] at h
      exact (List.nodup_append.1 h).2.2 f hm f (by simp) rfl
    simpa using idxOf_at (rest := tail ++ rest) hnot
  · rw [hinit] at h ⊢
    have hnot : g ∉ before ++ init := fun hm => by
      rw [← List.append_assoc before, List.append_assoc _ [g]] at h
      exact (List.nodup_append.1 h).2.2 g hm g (by simp) rfl
    have hat := idxOf_at (rest := rest) hnot
    simp only [List.append_assoc, List.singleton_append, List.length_append, List.length_singleton] at hat ⊢
    omega

theorem replaceSpan_at {before span rest : List Nat} {f g : Nat} (h : (before ++ span ++ rest).Nodup)
    (hf : span.head? = some f) (hg : span.getLast? = some g) (new : List Nat) :
    replaceSpan (before ++ span ++ rest) f g new = before ++ new ++ rest := by
  obtain ⟨hfirst, hlast⟩ := idxOf_span h hf hg
  rw [replaceSpan, hfirst, hlast, List.append_assoc before span, List.take_left', ← List.append_assoc,
    List.drop_left' (by simp)]
  rfl

theorem spanOf_at {before span rest : List Nat} {f g : Nat} (h : (before ++ span ++ rest).Nodup)
    (hf : span.head? = some f) (hg : span.getLast? = some g) : spanOf (before ++ span ++ rest) f g = span := by
  obtain ⟨hfirst, hlast⟩ := idxOf_span h hf hg
  rw [spanOf, hfirst, hlast, List.append_assoc, List.drop_left' rfl, List.take_left' (by omega)]

theorem insertLines_at {before span rest : List Nat} {f g : Nat} (h : (before ++ span ++ rest).Nodup)
    (hf : span.head? = some f) (hg : span.getLast? = some g) (new : List Nat) :
    insertLines (before ++ span ++ rest) (some g) new = before ++ span ++ new ++ rest := by
  obtain ⟨-, hlast⟩ := idxOf_span h hf hg
  rw [insertLines, hlast, List.take_left' (by simp), List.drop_left' (by simp)]

/-! ### Rundown and pool -/

/-- Settles O12: each edit at the place where the story it names cuts the rundown. -/
theorem rundownEdits : Obligations.RundownEdits := by
  refine ⟨?_, ?_, ?_, ?_⟩
  · intro before span rest new f g h hf hg
    exact ⟨replaceSpan_at h hf hg new, spanOf_at h hf hg, insertLines_at h hf hg new, rfl⟩
  · intro st before rest a n f g after lids slug target hnum hcut
    have haround := numbers_around (hcut ▸ hnum)
    have hstory : st.story? a.number = some a := by rw [Store.story?, hcut]; exact findStory_at haround
    refine ⟨?_, ?_, ?_, rfl, ?_, ?_, rfl, ?_, ?_, ?_, rfl⟩
    · rw [Store.rundownAfter, hcut, changeLines_at haround]
    · simp only [Store.removedBy, hstory]
    · rw [Store.rundownAfter, hcut, changeLines_at haround]
    · rw [Store.rundownAfter, hcut, insertStory_at haround]
    · rfl
    · rw [Store.rundownAfter, hcut, withoutStory_at haround]
    · simp only [Store.removedBy, hstory]
    · simp only [Store.rundownAfter, hstory]
      rw [hcut, withoutStory_at haround]
      rfl
  · intro st before between rest a x lids hnum
    have hmoved {front back : List Story} {y : Story} (hcut : st.rundown = front ++ y :: back) :
        st.rundownAfter (.storyMove y.number (some a.number)) lids =
          insertStory (front ++ back) (some a.number) y ∧ ((front ++ back).map (·.number)).Nodup := by
      have haround := numbers_around (hcut ▸ hnum)
      have hstory : st.story? y.number = some y := by rw [Store.story?, hcut]; exact findStory_at haround
      refine ⟨?_, (hcut ▸ hnum).sublist ((List.sublist_append_right [y] back).append_left front |>.map _)⟩
      simp only [Store.rundownAfter, hstory]
      rw [hcut, withoutStory_at haround]
    refine ⟨fun hcut => ?_, fun hcut => ?_⟩
    · obtain ⟨hafter, hkept⟩ := hmoved hcut
      rw [← List.append_assoc] at hafter hkept
      rw [hafter, insertStory_at (numbers_around hkept)]
    · rw [show before ++ a :: (between ++ x :: rest) = (before ++ a :: between) ++ x :: rest by simp] at hcut
      obtain ⟨hafter, hkept⟩ := hmoved hcut
      rw [List.append_assoc, List.cons_append] at hafter hkept
      rw [hafter, insertStory_at (numbers_around hkept)]
  · intro st e lids
    refine ⟨rfl, rfl, fun l => ?_⟩
    simp only [Store.applied, linkLines, List.mem_map, List.mem_filter, Bool.not_eq_true', List.contains_eq_mem,
      decide_eq_false_iff_not, decide_eq_true_eq, and_assoc]
    exact exists_congr fun k => and_congr_right fun _ => and_congr_right fun _ => eq_comm

end Sys2Proof.Machine

/-! PROOFS. The reading position on the script (sections 2.1, 2.3 to 2.5): what an apply makes of anchor and fraction, where
jumps and steps land, and the anchor a line in use across every step (R21, R22, R43 to R45). -/

namespace Sys2Proof.Machine

/-! ### The reading order -/

theorem Store.mem_order {st : Store} {lid : Nat} : lid ∈ st.order ↔ ∃ n, listedIn st.rundown lid n := by
  simp only [Store.order, List.mem_flatMap, listedIn]
  exact ⟨fun ⟨x, hx, hl⟩ => ⟨x.number, x, hx, rfl, hl⟩, fun ⟨_, x, hx, _, hl⟩ => ⟨x, hx, hl⟩⟩

section
variable {st : Store} {q : List Entry}

theorem StoreSound.order_nodup (h : StoreSound st q) : st.order.Nodup := RundownSound.order_nodup h

/-- A line in use names the story that lists it (R2, R6). -/
theorem StoreSound.storyOfLine_iff (h : StoreSound st q) {lid n : Nat} :
    st.storyOfLine? lid = some n ↔ listedIn st.rundown lid n := by
  rw [← h.inUse]
  constructor
  · intro hs
    obtain ⟨l, hl, hn⟩ := Option.bind_eq_some_iff.1 hs
    have hlid := List.find?_some hl
    simp only [Bool.and_eq_true, decide_eq_true_eq] at hlid
    exact ⟨l, List.mem_of_find?_eq_some hl, hlid.1, hn⟩
  · intro hh
    have hsome : (st.line? lid).isSome := by
      obtain ⟨l, hl, hlid, hn⟩ := hh
      rw [Store.line?, List.find?_isSome]
      exact ⟨l, hl, by simp [hlid, hn]⟩
    obtain ⟨m, hm⟩ := Option.isSome_iff_exists.1 hsome
    have hlid := List.find?_some hm
    simp only [Bool.and_eq_true, decide_eq_true_eq] at hlid
    have hstory := h.pool.one_story hh ⟨m, List.mem_of_find?_eq_some hm, hlid.1, rfl⟩
    rw [Store.storyOfLine?, hm, Option.bind_some, ← hstory]

/-- The story of a line listed before and after is one where the lists agree on it. -/
theorem StoreSound.storyOfLine_kept {u : Store} {r : List Entry} (h : StoreSound st q) (k : StoreSound u r) {lid : Nat}
    (hlisted : ∀ n, listedIn u.rundown lid n ↔ listedIn st.rundown lid n) : u.storyOfLine? lid = st.storyOfLine? lid :=
  Option.ext fun n => by
    have hn := hlisted n
    rw [← h.storyOfLine_iff, ← k.storyOfLine_iff] at hn
    exact hn

/-! #### The order across an apply -/

/-- A story named by an edit cuts the rundown. -/
theorem StoreSound.cut (h : StoreSound st q) {n : Nat} {x : Story} (hx : st.story? n = some x) :
    ∃ front back, st.rundown = front ++ x :: back ∧ n = x.number ∧ ∀ y ∈ front ++ back, y.number ≠ x.number := by
  obtain ⟨hmem, hn⟩ := Store.story?_mem hx
  obtain ⟨front, back, hcut⟩ := List.append_of_mem hmem
  exact ⟨front, back, hcut, hn.symm, numbers_around (hcut ▸ h.rundown.numbers)⟩

theorem Store.applied_order (st : Store) (e : EditParams) (lids : List Nat) :
    (st.applied e lids).order = (st.rundownAfter e lids).flatMap (·.lines) := rfl

/-- An edit that removes lines removes one run of the reading order, and puts its own lines in the place (R11, R14). -/
theorem StoreSound.order_cut (h : StoreSound st q) {e : EditParams} {lids : List Nat} (hstruct : st.structural e = none)
    (hcount : countInRange e lids.length = true) (hremoved : st.removedBy e ≠ []) :
    ∃ front back, st.order = front ++ st.removedBy e ++ back ∧ (st.applied e lids).order = front ++ lids ++ back := by
  cases e with
  | linesReplace n f l =>
    cases hx : st.story? n with
    | none => exact absurd (by simp only [Store.removedBy, hx]) hremoved
    | some x =>
      obtain ⟨front, back, hcut, rfl, haround⟩ := h.cut hx
      have hspan : spanCheck x.lines f l = none := by simpa only [Store.structural, hx] using hstruct
      obtain ⟨before, after, hlines, hreplace, -⟩ := lines_cut hspan lids
      have hrun : st.removedBy (.linesReplace x.number f l) = spanOf x.lines f l := by simp only [Store.removedBy, hx]
      refine ⟨front.flatMap (·.lines) ++ before, after ++ back.flatMap (·.lines), ?_, ?_⟩
      · rw [Store.order, hcut, hrun, List.flatMap_append, List.flatMap_cons]
        conv_lhs => rw [hlines]
        simp only [List.append_assoc]
      · rw [Store.applied_order, Store.rundownAfter, hcut, changeLines_at haround,
          List.flatMap_append, List.flatMap_cons, hreplace]
        simp only [List.append_assoc]
  | storyDrop n =>
    cases hx : st.story? n with
    | none => exact absurd (by simp only [Store.removedBy, hx]) hremoved
    | some x =>
      obtain ⟨front, back, hcut, rfl, haround⟩ := h.cut hx
      have hnone : lids = [] := List.length_eq_zero_iff.1 (of_decide_eq_true hcount)
      have hrun : st.removedBy (.storyDrop x.number) = x.lines := by simp only [Store.removedBy, hx]
      refine ⟨front.flatMap (·.lines), back.flatMap (·.lines), ?_, ?_⟩
      · rw [Store.order, hcut, hrun, List.flatMap_append, List.flatMap_cons, List.append_assoc]
      · rw [Store.applied_order, Store.rundownAfter, hcut, withoutStory_at haround,
          List.flatMap_append, hnone, List.append_nil]
  | _ => exact absurd rfl hremoved

/-- The place of a line in an order that holds no line twice. -/
theorem idxOf?_at {before rest : List Nat} {x : Nat} (h : x ∉ before) : (before ++ x :: rest).idxOf? x = some before.length := by
  refine List.idxOf?_eq_some_iff.2 ⟨by simp, by simp, fun j hj hx => h ?_⟩
  rw [← hx, List.getElem_append_left hj]
  exact List.getElem_mem hj

/-- The line directly after a removed run (R16). -/
theorem Store.lineAfter?_cut {front run back : List Nat} (hnodup : st.order.Nodup) (hcut : st.order = front ++ run ++ back)
    (hrun : run ≠ []) : st.lineAfter? run = back.head? := by
  obtain ⟨init, last, rfl⟩ := (List.eq_nil_or_concat run).resolve_left hrun
  rw [List.concat_eq_append] at hcut ⊢
  have hcut' : st.order = (front ++ init) ++ last :: back := by simp [hcut]
  have hnot : last ∉ front ++ init := fun hm => (List.nodup_append.1 (hcut' ▸ hnodup)).2.2 last hm last (by simp) rfl
  have hord : st.ordinal? last = some (front ++ init).length := by rw [Store.ordinal?, hcut', idxOf?_at hnot]
  simp only [Store.lineAfter?, List.getLast?_append, List.getLast?_singleton, Option.some_or, Option.bind_some, hord,
    Store.lineAt?, hcut']
  rw [List.getElem?_append_right (Nat.le_succ _), show (front ++ init).length.succ - (front ++ init).length = 1 by omega]
  cases back <;> rfl

/-- The line directly before a removed run (R16). -/
theorem Store.lineBefore?_cut {front run back : List Nat} (hnodup : st.order.Nodup) (hcut : st.order = front ++ run ++ back)
    (hrun : run ≠ []) : st.lineBefore? run = front.getLast? := by
  obtain ⟨first, tail, rfl⟩ := List.exists_cons_of_ne_nil hrun
  have hcut' : st.order = front ++ first :: (tail ++ back) := by simp [hcut]
  have hnot : first ∉ front := fun hm => (List.nodup_append.1 (hcut' ▸ hnodup)).2.2 first hm first (by simp) rfl
  have hord : st.ordinal? first = some front.length := by rw [Store.ordinal?, hcut', idxOf?_at hnot]
  simp only [Store.lineBefore?, List.head?_cons, Option.bind_some, hord]
  cases hlen : front.length with
  | zero => simp [List.length_eq_zero_iff.1 hlen]
  | succ o =>
    show st.order[o]? = _
    rw [hcut', List.getElem?_append_left (by omega), List.getLast?_eq_getElem?, hlen]
    rfl

/-- The new anchor after an apply that freed the anchor line, from the run removed and the lines around it (R43). -/
theorem StoreSound.newAnchor_cut (h : StoreSound st q) {e : EditParams} {lids front back : List Nat}
    (hcut : st.order = front ++ st.removedBy e ++ back) (hremoved : st.removedBy e ≠ []) :
    (st.report e lids).newAnchor = (if isReplace e then lids.head? else none).or (back.head?.or front.getLast?) := by
  simp only [ContentReport.newAnchor, Store.report, Store.lineAfter?_cut h.order_nodup hcut hremoved,
    Store.lineBefore?_cut h.order_nodup hcut hremoved]
  cases (if isReplace e then lids.head? else none) <;> cases back.head? <;> rfl

end

/-! ### What an apply makes of the engine (R43 to R45) -/

theorem State.relocate_sce (s : State) (r : ContentReport) {a : Nat} (ha : s.sce.anchor = some a) (hr : a ∈ r.removed) :
    (s.relocate r).sce = { s.sce with
      anchor := r.newAnchor, fraction := 0, velocity := if r.newAnchor = none then 0 else s.sce.velocity,
      currentStory := s.storyAt r.newAnchor } := by
  simp only [State.relocate, ha, List.contains_eq_mem, decide_eq_true hr, if_true]
  split
  · next hn => simp [State.moveAnchor_sce_eq, State.setVelocity, Option.isNone_iff_eq_none.1 hn]
  · next hn => simp [State.moveAnchor_sce_eq, if_neg (fun hnone => hn (Option.isNone_iff_eq_none.2 hnone))]

theorem State.relocate_kept (s : State) (r : ContentReport) (h : ∀ a, s.sce.anchor = some a → a ∉ r.removed) :
    s.relocate r = s := by
  unfold State.relocate
  split
  · next a ha => rw [if_neg (by simpa using h a ha)]
  · rfl

/-- The end test: fraction 0 where the anchor is the last line (R44). -/
theorem State.endTest_sce (s : State) : s.endTest.sce = { s.sce with
    fraction := if s.sce.anchor.isSome ∧ s.sce.anchor = s.scs.order.getLast? then 0 else s.sce.fraction } := by
  unfold State.endTest
  split <;> rfl

theorem State.firstAnchor_sce (s : State) (r : ContentReport) :
    (s.firstAnchor r).sce = if r.wasEmpty && !r.nowEmpty then
      { s.sce with anchor := s.scs.order.head?, fraction := 0, currentStory := s.storyAt s.scs.order.head? }
      else s.sce := by
  have hhead : s.scs.lineAt? 0 = s.scs.order.head? := by rw [Store.lineAt?, List.head?_eq_getElem?]
  unfold State.firstAnchor
  split
  · rw [State.moveAnchor_sce_eq, hhead]
  · rfl

theorem State.takeApply_sce (s : State) (r : ContentReport) :
    (s.takeApply r).sce = ((s.relocate r).endTest.firstAnchor r).sce := by
  simp [State.takeApply]

/-- A move tells of the current story where it is new (R22). -/
theorem State.moveAnchor_told (s : State) (a : Option Nat) (f : Nat) :
    (s.moveAnchor a f).cli = { s.cli with notices := storyTold s.cli.notices s.sce.currentStory (s.storyAt a) } := by
  unfold State.moveAnchor State.storyAt
  dsimp only
  split
  · cases hc : s.sce.currentStory <;> simp [storyTold]
  · simp [State.followStory_cli_eq]

/-- An apply that removes another run than the anchor's line, on a script that was not empty: the end test is all (R44). -/
theorem State.takeApply_kept {s : State} {r : ContentReport} (hkept : ∀ a, s.sce.anchor = some a → a ∉ r.removed)
    (hempty : (r.wasEmpty && !r.nowEmpty) = false) :
    (s.takeApply r).sce = { s.sce with
      fraction := if s.sce.anchor.isSome ∧ s.sce.anchor = s.scs.order.getLast? then 0 else s.sce.fraction } ∧
      (s.takeApply r).ede = s.ede ∧ (s.takeApply r).cli = s.cli := by
  have hfirst : s.endTest.firstAnchor r = s.endTest := by rw [State.firstAnchor, if_neg (by simp [hempty])]
  refine ⟨?_, ?_, ?_⟩
  · rw [State.takeApply_sce, State.relocate_kept s r hkept, hfirst, State.endTest_sce]
  · simp [State.takeApply, State.relocate_kept s r hkept, hfirst]
  · simp [State.takeApply, State.relocate_kept s r hkept, hfirst]

/-- An apply that removes the anchor's line (R43). -/
theorem State.takeApply_moved {s : State} {r : ContentReport} {a : Nat} (ha : s.sce.anchor = some a) (hr : a ∈ r.removed)
    (hnew : r.newAnchor ≠ some a) (hempty : (r.wasEmpty && !r.nowEmpty) = false) :
    (s.takeApply r).sce = { s.sce with
      anchor := r.newAnchor, fraction := 0, velocity := if r.newAnchor = none then 0 else s.sce.velocity,
      currentStory := r.newAnchor.bind s.scs.storyOfLine? } ∧
      (s.takeApply r).ede = { s.ede with passesDue := s.ede.passesDue + 1 } ∧
      (s.takeApply r).cli = { s.cli with
        notices := storyTold s.cli.notices s.sce.currentStory (r.newAnchor.bind s.scs.storyOfLine?) } := by
  have hfirst : (s.relocate r).endTest.firstAnchor r = (s.relocate r).endTest := by
    rw [State.firstAnchor, if_neg (by simp [hempty])]
  have hstory : s.storyAt r.newAnchor = r.newAnchor.bind s.scs.storyOfLine? := by
    rw [State.storyAt, ha, if_neg hnew]
  have hrelocate : (s.relocate r).ede = (s.moveAnchor r.newAnchor 0).ede ∧
      (s.relocate r).cli = (s.moveAnchor r.newAnchor 0).cli := by
    simp only [State.relocate, ha, List.contains_eq_mem, decide_eq_true hr, if_true]
    split <;> exact ⟨rfl, rfl⟩
  refine ⟨?_, ?_, ?_⟩
  · rw [State.takeApply_sce, hfirst, State.endTest_sce, State.relocate_sce s r ha hr, hstory]
    simp
  · have hpass : (s.moveAnchor r.newAnchor 0).ede = { s.ede with passesDue := s.ede.passesDue + 1 } := by
      rw [State.moveAnchor_ede, ha, if_neg hnew]
    rw [State.takeApply, hfirst]
    simpa [hrelocate.1] using hpass
  · rw [State.takeApply, hfirst, ← hstory, ← State.moveAnchor_told s r.newAnchor 0]
    simpa using hrelocate.2

/-- An apply that puts lines into an empty script (R45). -/
theorem State.takeApply_first {s : State} {r : ContentReport} (ha : s.sce.anchor = none)
    (hempty : (r.wasEmpty && !r.nowEmpty) = true) (horder : s.scs.order ≠ []) :
    (s.takeApply r).sce = { s.sce with
      anchor := s.scs.order.head?, fraction := 0, currentStory := s.scs.order.head?.bind s.scs.storyOfLine? } ∧
      (s.takeApply r).ede = { s.ede with passesDue := s.ede.passesDue + 1 } ∧
      (s.takeApply r).cli = { s.cli with
        notices := storyTold s.cli.notices s.sce.currentStory (s.scs.order.head?.bind s.scs.storyOfLine?) } := by
  have hrelocate : s.relocate r = s := s.relocate_kept r fun a hsome => by simp [ha] at hsome
  have hend : s.endTest = s := by rw [State.endTest, if_neg (by simp [ha])]
  have hhead : s.scs.order.head? ≠ none := by simpa using horder
  have hstory : s.storyAt s.scs.order.head? = s.scs.order.head?.bind s.scs.storyOfLine? := by
    rw [State.storyAt, ha, if_neg hhead]
  have hline : s.scs.lineAt? 0 = s.scs.order.head? := by rw [Store.lineAt?, List.head?_eq_getElem?]
  have hfirst : s.firstAnchor r = s.moveAnchor s.scs.order.head? 0 := by rw [State.firstAnchor, if_pos hempty, hline]
  refine ⟨?_, ?_, ?_⟩
  · rw [State.takeApply_sce, hrelocate, hend, hfirst, State.moveAnchor_sce_eq, hstory]
  · have hpass : (s.moveAnchor s.scs.order.head? 0).ede = { s.ede with passesDue := s.ede.passesDue + 1 } := by
      rw [State.moveAnchor_ede, ha, if_neg hhead]
    rw [State.takeApply, hrelocate, hend, hfirst]
    simpa using hpass
  · rw [State.takeApply, hrelocate, hend, hfirst, ← hstory, ← State.moveAnchor_told s _ 0]
    simp

/-! ### The anchor on the script (R21, R22) -/

/-- The reading position lies on the script: a line in use, none exactly in an empty script, its story the current one; the
fraction within a line's units, and 0 on the last line (R21, R22). -/
structure Anchored (st : Store) (e : ScrollEngine) : Prop where
  empty : e.anchor = none ↔ st.order = []
  mem : ∀ a, e.anchor = some a → a ∈ st.order
  range : e.fraction < 4096
  last : e.anchor = st.order.getLast? → e.fraction = 0
  story : e.currentStory = e.anchor.bind st.storyOfLine?

theorem State.anchorOk_iff (s : State) : s.anchorOk = true ↔ Anchored s.scs s.sce := by
  simp only [State.anchorOk, Bool.and_eq_true, beq_iff_eq, decide_eq_true_eq, Bool.or_eq_true, Option.all_eq_true,
    List.contains_eq_mem, and_assoc]
  constructor
  · rintro ⟨hempty, hmem, hrange, hlast, hstory⟩
    refine ⟨?_, hmem, hrange, fun h => hlast.resolve_left (not_not_intro h), hstory⟩
    rw [← Option.isNone_iff_eq_none, ← List.isEmpty_iff, hempty]
  · rintro ⟨hempty, hmem, hrange, hlast, hstory⟩
    refine ⟨?_, hmem, hrange, (Decidable.em _).symm.imp_right hlast, hstory⟩
    rw [← Option.isNone_iff_eq_none, ← List.isEmpty_iff] at hempty
    exact Bool.eq_iff_iff.2 hempty

/-- A position on one script is one on another whose order is the same, with the anchor in the same story. -/
theorem Anchored.of_order {st u : Store} {e : ScrollEngine} (h : Anchored st e) (horder : u.order = st.order)
    (hstory : ∀ a ∈ st.order, u.storyOfLine? a = st.storyOfLine? a) : Anchored u e where
  empty := by rw [horder]; exact h.empty
  mem := fun a ha => horder ▸ h.mem a ha
  range := h.range
  last := by rw [horder]; exact h.last
  story := by
    rw [h.story]
    cases ha : e.anchor with
    | none => rfl
    | some a => exact (hstory a (h.mem a ha)).symm

/-- A position with anchor, fraction and current story as another has them. -/
theorem Anchored.of_position {st : Store} {e f : ScrollEngine} (h : Anchored st e) (ha : f.anchor = e.anchor)
    (hf : f.fraction = e.fraction) (hs : f.currentStory = e.currentStory) : Anchored st f where
  empty := by rw [ha]; exact h.empty
  mem := by rw [ha]; exact h.mem
  range := by rw [hf]; exact h.range
  last := by rw [ha, hf]; exact h.last
  story := by rw [ha, hs]; exact h.story

/-- A move to a line of the script, at fraction 0 on the last line. -/
theorem Anchored.moved {st : Store} {e : ScrollEngine} {a : Nat} (hmem : a ∈ st.order) (hanchor : e.anchor = some a)
    (hrange : e.fraction < 4096) (hlast : st.order.getLast? = some a → e.fraction = 0)
    (hstory : e.currentStory = st.storyOfLine? a) : Anchored st e where
  empty := by rw [hanchor]; simp [List.ne_nil_of_mem hmem]
  mem := fun b hb => by rw [hanchor] at hb; exact Option.some.inj hb ▸ hmem
  range := hrange
  last := fun h => hlast (hanchor ▸ h.symm)
  story := by rw [hanchor]; exact hstory

section
variable {st : Store} {before after : List Entry} {e : Entry}

/-- What an apply makes of the line lists and the rundown, whatever the edit (R11 to R15). -/
theorem StoreSound.applied_listed (h : StoreSound st (before ++ e :: after)) (hstruct : st.structural e.edit = none)
    (hlimit : st.limit e.edit e.lids.length = none) (lid n : Nat) :
    listedIn (st.applied e.edit e.lids).rundown lid n ↔
      (lid ∈ e.lids ∧ n = editStory e.edit) ∨ (lid ∉ st.removedBy e.edit ∧ listedIn st.rundown lid n) := by
  have happlied := h.applied hstruct hlimit
  have hres (hl : lid ∈ e.lids) : st.holds lid none := (h.reserved lid).2 (List.mem_flatMap.2 ⟨e, by simp, hl⟩)
  rw [← happlied.inUse, Store.applied_holds, h.inUse]
  constructor
  · rintro ⟨hnot, ⟨hl, ho, -⟩ | ⟨-, hl⟩⟩
    · exact .inl ⟨hl, Option.some.inj ho⟩
    · exact .inr ⟨hnot, hl⟩
  · rintro (⟨hl, rfl⟩ | ⟨hnot, hl⟩)
    · refine ⟨fun hr => ?_, .inl ⟨hl, rfl, none, hres hl⟩⟩
      exact absurd (h.pool.one_story (hres hl) ((h.inUse lid _).2 (h.removed_listed hr))) (by simp)
    · refine ⟨hnot, .inr ⟨fun hm => ?_, hl⟩⟩
      exact absurd (h.pool.one_story (hres hm) ((h.inUse lid n).2 hl)) (by simp)

/-- A line kept by an apply keeps its story. -/
theorem StoreSound.applied_story (h : StoreSound st (before ++ e :: after)) (hstruct : st.structural e.edit = none)
    (hlimit : st.limit e.edit e.lids.length = none) {a : Nat} (ha : a ∈ st.order) (hkept : a ∉ st.removedBy e.edit) :
    a ∈ (st.applied e.edit e.lids).order ∧ (st.applied e.edit e.lids).storyOfLine? a = st.storyOfLine? a := by
  obtain ⟨n, hn⟩ := Store.mem_order.1 ha
  have hlisted (m : Nat) := h.applied_listed hstruct hlimit a m
  have hnot : a ∉ e.lids := fun hm => by
    have hres := (h.reserved a).2 (List.mem_flatMap.2 ⟨e, by simp, hm⟩)
    exact absurd (h.pool.one_story hres ((h.inUse a n).2 hn)) (by simp)
  refine ⟨Store.mem_order.2 ⟨n, (hlisted n).2 (.inr ⟨hkept, hn⟩)⟩, ?_⟩
  refine h.storyOfLine_kept (h.applied hstruct hlimit) fun m => ?_
  rw [hlisted m]
  simp [hnot, hkept]

/-- The report of an apply says when an empty script has taken its first lines (R16). -/
theorem Store.report_first (st : Store) (e : EditParams) (lids : List Nat) :
    ((st.report e lids).wasEmpty && !(st.report e lids).nowEmpty) = true ↔
      st.order = [] ∧ (st.applied e lids).order ≠ [] := by
  simp [Store.report]

end

end Sys2Proof.Machine

/-! PROOFS. The anchor a line in use, empty only in an empty script, across every step (R21, R22, R43 to R45). -/

namespace Sys2Proof.Machine

/-! ### Across edits (R43 to R45) -/

section
variable {st : Store} {before after : List Entry} {e : Entry}

/-- The line that takes an anchor's place is a line of the script after the apply; there is none exactly where no line is
left (R43). -/
theorem StoreSound.newAnchor_mem (h : StoreSound st (before ++ e :: after)) (hstruct : st.structural e.edit = none)
    (hremoved : st.removedBy e.edit ≠ []) :
    ((st.report e.edit e.lids).newAnchor = none ↔ (st.applied e.edit e.lids).order = []) ∧
      ∀ a, (st.report e.edit e.lids).newAnchor = some a → a ∈ (st.applied e.edit e.lids).order := by
  have hcount := h.queue.counts e (by simp)
  obtain ⟨front, back, hcut, hafter⟩ := h.order_cut hstruct hcount hremoved
  have hreplace : (if isReplace e.edit then e.lids.head? else none) = e.lids.head? := by
    revert hremoved hcount
    cases e.edit with
    | linesReplace => exact fun _ _ => rfl
    | storyDrop => exact fun _ hc => by simp [List.length_eq_zero_iff.1 (of_decide_eq_true hc)]
    | _ => exact fun hne _ => absurd rfl hne
  rw [h.newAnchor_cut hcut hremoved, hafter, hreplace]
  constructor
  · simp [and_comm, and_assoc]
  · intro a ha
    simp only [Option.or_eq_some_iff] at ha
    rcases ha with ha | ⟨-, ha | ⟨-, ha⟩⟩
    · simp [List.mem_of_mem_head? ha]
    · simp [List.mem_of_mem_head? ha]
    · simp [List.mem_of_getLast? ha]

/-- The line that takes an anchor's place is not one of those removed. -/
theorem StoreSound.newAnchor_kept (h : StoreSound st (before ++ e :: after)) (hstruct : st.structural e.edit = none)
    (hlimit : st.limit e.edit e.lids.length = none) {a : Nat} (ha : a ∈ st.removedBy e.edit) :
    (st.report e.edit e.lids).newAnchor ≠ some a := by
  intro hnew
  have hmem := (h.newAnchor_mem hstruct (List.ne_nil_of_mem ha)).2 a hnew
  obtain ⟨n, hn⟩ := Store.mem_order.1 hmem
  rcases (h.applied_listed hstruct hlimit a n).1 hn with ⟨hl, -⟩ | ⟨hnot, -⟩
  · have hres := (h.reserved a).2 (List.mem_flatMap.2 ⟨e, by simp, hl⟩)
    exact absurd (h.pool.one_story hres ((h.inUse a _).2 (h.removed_listed ha))) (by simp)
  · exact hnot ha

/-- The engine's position after an apply lies on the script (R43 to R45). -/
theorem State.takeApply_anchored {u : State} (h : StoreSound st (before ++ e :: after))
    (hstruct : st.structural e.edit = none) (hlimit : st.limit e.edit e.lids.length = none) (ha : Anchored st u.sce)
    (hu : u.scs = st.applied e.edit e.lids) : Anchored u.scs (u.takeApply (st.report e.edit e.lids)).sce := by
  have happlied := h.applied hstruct hlimit
  cases hanchor : u.sce.anchor with
  | none =>
    have horder : st.order = [] := ha.empty.1 hanchor
    by_cases hafter : u.scs.order = []
    · have hkept := State.takeApply_kept (s := u) (r := st.report e.edit e.lids) (fun a hsome => by simp [hanchor] at hsome)
        (by simp [Store.report, ← hu, hafter])
      have hlast : u.sce.anchor = st.order.getLast? := by rw [hanchor, horder]; rfl
      rw [hkept.1]
      refine ⟨by simp [hanchor, hafter], by simp [hanchor], ?_, ?_, ?_⟩
      · simpa [hanchor] using ha.range
      · simpa [hanchor] using fun _ => ha.last hlast
      · simpa [hanchor] using ha.story
    · have hfirst := State.takeApply_first (s := u) (r := st.report e.edit e.lids) hanchor
        ((st.report_first e.edit e.lids).2 ⟨horder, hu ▸ hafter⟩) hafter
      obtain ⟨a, rest, hcons⟩ := List.exists_cons_of_ne_nil hafter
      have hhead : u.scs.order.head? = some a := by rw [hcons]; rfl
      rw [hfirst.1, hhead]
      exact Anchored.moved (a := a) (by simp [hcons]) rfl (Nat.zero_lt_succ _) (fun _ => rfl) rfl
  | some a =>
    have hmem := ha.mem a hanchor
    have hempty : ((st.report e.edit e.lids).wasEmpty && !(st.report e.edit e.lids).nowEmpty) = false := by
      simp [Store.report, List.ne_nil_of_mem hmem]
    by_cases hr : a ∈ st.removedBy e.edit
    · have hmoved := State.takeApply_moved (r := st.report e.edit e.lids) hanchor hr
        (h.newAnchor_kept hstruct hlimit hr) hempty
      obtain ⟨hnone, hnew⟩ := h.newAnchor_mem hstruct (List.ne_nil_of_mem hr)
      rw [hmoved.1]
      exact ⟨hu ▸ hnone, hu ▸ hnew, Nat.zero_lt_succ _, fun _ => rfl, rfl⟩
    · have hkept := State.takeApply_kept (s := u) (r := st.report e.edit e.lids)
        (fun b hb => by rw [hanchor] at hb; exact Option.some.inj hb ▸ hr) hempty
      obtain ⟨hmem', hstory⟩ := h.applied_story hstruct hlimit hmem hr
      rw [hkept.1]
      refine Anchored.moved (a := a) (hu ▸ hmem') hanchor ?_ (fun hlast => ?_) ?_
      · dsimp only
        split
        · decide
        · exact ha.range
      · simp [hanchor, hlast]
      · rw [hu, hstory]
        simpa [hanchor] using ha.story

end

/-- The reading position of the state lies on its script. -/
def State.Placed (s : State) : Prop := Anchored s.scs s.sce

theorem dependsOn_placed : DependsOn [.scs, .sce] State.Placed := by
  intro s t h hs
  have hscs : t.scs = s.scs := h .scs (by simp)
  have hsce : t.sce = s.sce := h .sce (by simp)
  unfold State.Placed
  rwa [hscs, hsce]

theorem State.Placed.of_same {s t : State} (h : s.Placed) (hscs : t.scs = s.scs) (hsce : t.sce = s.sce) : t.Placed := by
  unfold State.Placed
  rwa [hscs, hsce]

/-- An entry dropped from the queue frees reserved lines only (R4). -/
theorem State.dropEntry_placed {s u : State} {before after : List Entry} {e : Entry}
    (h : StoreSound s.scs (before ++ e :: after)) (hp : s.Placed) (c : Cause) (hu : u.scs = s.scs) (hsce : u.sce = s.sce) :
    (u.dropEntry e c).Placed := by
  have hsame : (u.dropEntry e c).sce = s.sce := by simpa using hsce
  unfold State.Placed
  rw [State.dropEntry_scs, hsame, hu]
  exact hp.of_order rfl fun a ha => h.storyOfLine_kept h.release fun n => Iff.rfl

theorem State.applyEntry_sce (s : State) (e : Entry) :
    (s.applyEntry e).sce = ((({ s with scs := s.scs.applied e.edit e.lids } : State).raiseCommit .commitDone e.link e.tag
      none).takeApply (s.scs.report e.edit e.lids)).sce := by
  simp [State.applyEntry, State.takeReport, Store.report]

theorem State.applyEntry_placed {s : State} {before after : List Entry} {e : Entry}
    (h : StoreSound s.scs (before ++ e :: after)) (hp : s.Placed)
    (hcheck : s.entryChecks e.link e.edit e.lids.length = none) : ((s.setQueue (before ++ after)).applyEntry e).Placed := by
  simp only [State.entryChecks, Option.or_eq_none_iff] at hcheck
  obtain ⟨⟨hstruct, -⟩, hlimit⟩ := hcheck
  unfold State.Placed
  rw [State.applyEntry_sce, State.applyEntry_scs, State.setQueue_scs]
  have hanchored := State.takeApply_anchored (u := ({ s.setQueue (before ++ after) with
    scs := s.scs.applied e.edit e.lids } : State).raiseCommit .commitDone e.link e.tag none) h hstruct hlimit
    (by simpa [State.Placed] using hp) (by simp)
  simpa using hanchored

theorem State.pass_placed {s : State} (h : s.Stored) (hp : s.Placed) : s.pass.Placed := by
  have hends := s.pass_ends
  generalize s.pass = t at hends
  generalize hq : s.ede.queue = q at hends
  have hnoted {u : State} (hu : Noted s u) : u.scs = s.scs ∧ u.sce = s.sce := ⟨hu .scs (by decide), hu .sce (by decide)⟩
  cases hends with
  | kept u q' hu => exact hp.of_same (hnoted hu).1 (hnoted hu).2
  | removed u before before' after e cause detail hu hrest hall =>
    obtain ⟨hscs, hsce⟩ := hnoted hu
    exact State.dropEntry_placed (h.reevaluated (hq.trans hrest) hall).1 hp cause (by simpa using hscs) (by simpa using hsce)
  | applied u before before' after e hu hrest hall _ _ hcheck =>
    obtain ⟨hscs, hsce⟩ := hnoted hu
    have hsound := (h.reevaluated (hq.trans hrest) hall).1
    rw [← hscs] at hsound
    exact State.applyEntry_placed hsound (hp.of_same hscs hsce) hcheck

theorem State.pageCopied_placed {s : State} (h : s.Stored) (hp : s.Placed) (l : Link) (page : Page) (e : Entry) :
    (s.pageCopied l page e).Placed := by
  have hsce : (s.pageCopied l page e).sce = s.sce := by simp [State.pageCopied]
  have hscs : (s.pageCopied l page e).scs = s.scs.writePage e.lids page := by simp [State.pageCopied]
  unfold State.Placed
  rw [hscs, hsce]
  exact hp.of_order rfl fun a _ => h.1.storyOfLine_kept (h.1.writePage e.lids page) fun n => Iff.rfl

theorem State.copyDone_placed {s : State} (h : s.Stored) (hp : s.Placed) (page : Page) {e : Entry}
    (he : e ∈ s.ede.queue) (hstate : e.state = .copying) : (s.copyDone e.link page e).Placed := by
  obtain ⟨⟨before, after, hwithout, hsound, -⟩, hwaiting⟩ := State.pageCopied_stored h page he hstate
  have hpage := State.pageCopied_placed h hp e.link page e
  rw [State.copyDone_eq, hwithout]
  split
  · exact State.dropEntry_placed hsound hpage .cancelled rfl rfl
  · exact State.pass_placed hwaiting hpage

/-- A reservation takes no line of the script (R3). -/
theorem State.acceptCommit_placed {s : State} (h : s.Stored) (hp : s.Placed) {n : Nat} {st : Store} {lids : List Nat}
    (hr : s.scs.reserve n = .ok (st, lids)) (l : Link) (tag : Byte) (e : EditParams) (page : Page) :
    (s.acceptCommit l tag e n page st lids).Placed := by
  have hsce : (s.acceptCommit l tag e n page st lids).sce = s.sce := by simp [State.acceptCommit]
  have hscs : (s.acceptCommit l tag e n page st lids).scs = st := by simp [State.acceptCommit]
  obtain ⟨-, -, hlids, rfl⟩ := Store.reserve_ok hr
  unfold State.Placed
  rw [hsce, hscs]
  refine hp.of_order rfl fun a ha => ?_
  obtain ⟨n, hn⟩ := Store.mem_order.1 ha
  obtain ⟨x, hx, hlid, hstory⟩ := (h.1.inUse a n).2 hn
  have hfound : (s.scs.pool.find? fun l => l.lid = a && l.story.isSome).isSome := by
    rw [List.find?_isSome]
    exact ⟨x, hx, by simp [hlid, hstory]⟩
  obtain ⟨y, hy⟩ := Option.isSome_iff_exists.1 hfound
  simp only [Store.storyOfLine?, Store.line?, List.find?_append, hy, Option.some_or]

theorem doEcmt_placed {s : State} (h : s.Stored) (hp : s.Placed) (l : Link) (tag : Byte) : (doEcmt l tag s).1.Placed := by
  unfold doEcmt
  split
  · next e n page hslot =>
    split
    · exact hp
    · next hchecks =>
      split
      · exact hp
      · next st lids hr =>
        have hplaced := State.acceptCommit_placed h hp hr l tag e page
        unfold State.startCopy
        dsimp only
        split
        · next hz =>
          have hstored := State.acceptCommit_stored (page' := page) h (fun hn => absurd hz hn) hslot hchecks hr
          exact State.copyDone_placed (e := newEntry l tag e lids) hstored hplaced page (by simp) rfl
        · exact hplaced
  · exact hp

theorem State.cancelEntry_placed {s : State} (h : s.Stored) (hp : s.Placed) {e : Entry} (he : e ∈ s.ede.queue) :
    (s.cancelEntry e).1.Placed := by
  unfold State.cancelEntry
  split
  · exact hp
  · obtain ⟨before, after, hq, hwithout, -⟩ := queue_at_entry h.1.queue.keys he
    exact State.dropEntry_placed (hq ▸ h.1) hp .cancelled rfl rfl

theorem State.forceEntry_placed {s : State} (h : s.Stored) (hp : s.Placed) {e : Entry} (he : e ∈ s.ede.queue) (l : Link) :
    (s.forceEntry l e).1.Placed := by
  obtain ⟨before, after, hq, hwithout, -⟩ := queue_at_entry h.1.queue.keys he
  have hsound : StoreSound s.scs (before ++ e :: after) := hq ▸ h.1
  unfold State.forceEntry
  dsimp only
  split
  · exact hp
  · split
    · next cause detail _ =>
      have hdropped : ((s.setQueue (withoutEntry s.ede.queue e.link e.tag)).dropEntry e cause).Placed :=
        State.dropEntry_placed hsound hp cause rfl rfl
      exact hdropped
    · next hcheck =>
      rw [hwithout]
      exact State.applyEntry_placed hsound hp hcheck

/-! ### Jumps and steps (R30 to R34, R41) -/

theorem Store.flatMap_mem {st : Store} {part : List Story} (hsub : ∀ x ∈ part, x ∈ st.rundown) {a : Nat}
    (h : a ∈ part.flatMap (·.lines)) : a ∈ st.order := by
  obtain ⟨x, hx, hl⟩ := List.mem_flatMap.1 h
  exact List.mem_flatMap.2 ⟨x, hsub x hx, hl⟩

theorem Store.firstLineAfter?_mem {st : Store} {i a : Nat} (h : st.firstLineAfter? i = some a) : a ∈ st.order :=
  Store.flatMap_mem (fun _ hx => List.mem_of_mem_drop hx) (List.mem_of_mem_head? h)

theorem Store.story_head_mem {st : Store} {n a : Nat} {x : Story} (hx : st.story? n = some x) (h : x.lines.head? = some a) :
    a ∈ st.order := List.mem_flatMap.2 ⟨x, (Store.story?_mem hx).1, List.mem_of_mem_head? h⟩

/-- A jump resolves to a line of the script (R41). -/
theorem State.resolve_mem {s : State} {q : List Entry} (h : StoreSound s.scs q) {t : JumpTarget} {a : Nat}
    (hr : s.resolve t = some a) : a ∈ s.scs.order := by
  cases t with
  | top => exact List.mem_of_getElem? hr
  | story n =>
    simp only [State.resolve, Store.resolveStory] at hr
    split at hr
    · cases hr
    · next x hx =>
      split at hr
      · next hl => cases hr; exact Store.story_head_mem hx hl
      · split at hr
        · next hl => cases hr; exact Store.firstLineAfter?_mem hl
        · exact List.mem_of_getLast? hr
  | next =>
    obtain ⟨c, -, hc⟩ := Option.bind_eq_some_iff.1 hr
    simp only [Store.resolveNext] at hc
    split at hc
    · next hl => cases hc; exact Store.firstLineAfter?_mem hl
    · exact List.mem_of_getLast? hc
  | prev =>
    obtain ⟨c, -, hc⟩ := Option.bind_eq_some_iff.1 hr
    simp only [Store.resolvePrev] at hc
    split at hc
    · next hl =>
      cases hc
      obtain ⟨x, hx, hhead⟩ := Option.bind_eq_some_iff.1 hl
      have hmem := List.mem_of_mem_take (List.mem_of_mem_filter (List.mem_of_getLast? hx))
      exact List.mem_flatMap.2 ⟨x, hmem, List.mem_of_mem_head? hhead⟩
    · obtain ⟨x, hx, hhead⟩ := Option.bind_eq_some_iff.1 hc
      exact Store.story_head_mem hx hhead
  | line lid =>
    obtain ⟨l, hl, rfl⟩ := Option.map_eq_some_iff.1 hr
    have hprop := List.find?_some hl
    simp only [Bool.and_eq_true, decide_eq_true_eq] at hprop
    obtain ⟨n, hn⟩ := Option.isSome_iff_exists.1 hprop.2
    exact Store.mem_order.2 ⟨n, (h.inUse l.lid n).1 ⟨l, List.mem_of_find?_eq_some hl, rfl, hn⟩⟩

/-- A place at or before the end position: on the last line it is the end position, of fraction 0 (R8, R32). -/
theorem Store.landAt_placed {st : Store} (h : st.order.Nodup) {p : Nat} {v : Int} {l : Landing} (hl : st.landAt p v = some l)
    (hp : p ≤ st.endPosition) : l.lid ∈ st.order ∧ (st.order.getLast? = some l.lid → l.fraction = 0) := by
  obtain ⟨hline, hf, -⟩ := Store.landAt_eq hl
  refine ⟨List.mem_of_getElem? hline, fun hlast => ?_⟩
  rw [List.getLast?_eq_getElem?] at hlast
  have hlt := (List.getElem?_eq_some_iff.1 hline).1
  have hidx := (List.getElem?_inj hlt h).1 (hline.trans hlast.symm)
  simp only [Store.endPosition, topOf, Store.lineCount, Config.unitsPerLine] at hp
  omega

/-- A landing from a place at or before the end position is on a line of the script, at fraction 0 on the last (R30 to R34). -/
theorem Store.landing_placed {st : Store} (h : st.order.Nodup) {p : Nat} {v : Int} {l : Landing}
    (hl : st.landing p v = some l) (hp : p ≤ st.endPosition) :
    l.lid ∈ st.order ∧ (st.order.getLast? = some l.lid → l.fraction = 0) := by
  unfold Store.landing at hl
  split at hl
  · unfold Store.landForward at hl
    split at hl
    · next x hx =>
      cases hl
      have hmem := List.mem_of_find?_eq_some hx
      simp only [Store.topsIn, List.mem_filterMap, Option.map_eq_some_iff] at hmem
      obtain ⟨k, -, lid, hlid, rfl⟩ := hmem
      exact ⟨List.mem_of_getElem? hlid, fun _ => rfl⟩
    · split at hl
      · exact Store.landAt_placed h hl le_rfl
      · exact Store.landAt_placed h hl (by omega)
  · split at hl
    · unfold Store.landBackward at hl
      split at hl
      · exact Store.landAt_placed h hl (Nat.zero_le _)
      · exact Store.landAt_placed h hl (by omega)
    · cases hl

/-- The position lies at or before the end position (R21, R22). -/
theorem State.position_le_end {s : State} (hp : s.Placed) {p : Nat} (h : s.position? = some p) : p ≤ s.scs.endPosition := by
  obtain ⟨o, ho, rfl⟩ := Option.map_eq_some_iff.1 h
  obtain ⟨a, ha, hidx⟩ := Option.bind_eq_some_iff.1 ho
  obtain ⟨hlt, hget, -⟩ := List.idxOf?_eq_some_iff.1 hidx
  have hrange := hp.range
  simp only [Store.endPosition, topOf, Store.lineCount, Config.unitsPerLine]
  by_cases hlast : o + 1 = s.scs.order.length
  · have hfraction := hp.last (by
      rw [ha, List.getLast?_eq_getElem?, ← hlast, Nat.add_sub_cancel, List.getElem?_eq_getElem hlt, hget])
    omega
  · omega

/-- A move to a line of the script keeps the position on it. -/
theorem State.storyAt_eq {s : State} (hp : s.Placed) (a : Nat) : s.storyAt (some a) = s.scs.storyOfLine? a := by
  unfold State.storyAt
  split
  · next ha => rw [hp.story, ← ha]; rfl
  · rfl

theorem State.stepMove_placed {s : State} {q : List Entry} (h : StoreSound s.scs q) (hp : s.Placed) : s.stepMove.Placed := by
  have hscs : s.stepMove.scs = s.scs := by simp
  have hrest : Anchored s.scs { s.sce with velocity := 0 } := hp.of_position rfl rfl rfl
  unfold State.Placed
  rw [hscs]
  unfold State.stepMove
  split
  · next t _ =>
    rw [State.applyJump_sce]
    cases hr : s.resolve t with
    | none => exact hp.of_position rfl rfl rfl
    | some a =>
      exact Anchored.moved (a := a) (State.resolve_mem h hr) rfl (Nat.zero_lt_succ _) (fun _ => rfl)
        (State.storyAt_eq hp a)
  · split
    · exact hrest
    · next p hpos =>
      split
      · exact hrest
      · rw [State.drive, State.integrate_sce]
        split
        · next l hl =>
          obtain ⟨hmem, hlast⟩ := Store.landing_placed h.order_nodup hl (State.position_le_end hp hpos)
          rw [State.takeLanding_sce]
          exact Anchored.moved hmem rfl (Store.landing_ranges hl).1 hlast (State.storyAt_eq hp l.lid)
        · exact hrest

/-- The buttons leave the position as it was (R27). -/
theorem ScrollEngine.press_position (e : ScrollEngine) (b : Edges) :
    (e.press b).anchor = e.anchor ∧ (e.press b).fraction = e.fraction ∧ (e.press b).currentStory = e.currentStory := by
  unfold ScrollEngine.press ScrollEngine.toggleFreeze ScrollEngine.release
  dsimp only
  (repeat' split) <;> exact ⟨rfl, rfl, rfl⟩

theorem State.scrollStep_placed {s : State} {q : List Entry} (h : StoreSound s.scs q) (hp : s.Placed) :
    s.scrollStep.Placed := by
  obtain ⟨ha, hf, hs⟩ := ScrollEngine.press_position s.sce s.holderButtons
  have hbuttons : s.takeButtons.Placed := hp.of_position ha hf hs
  exact (State.stepMove_placed (s := s.takeButtons) h hbuttons).of_same (by simp [State.scrollStep])
    (by simp [State.scrollStep])

/-! ### Requests and events -/

/-- Anchor, fraction and current story stand. -/
def PositionKept (e f : ScrollEngine) : Prop :=
  f.anchor = e.anchor ∧ f.fraction = e.fraction ∧ f.currentStory = e.currentStory

theorem PositionKept.refl (e : ScrollEngine) : PositionKept e e := ⟨rfl, rfl, rfl⟩

theorem State.Placed.of_kept {s t : State} (h : s.Placed) (hscs : t.scs = s.scs) (hsce : PositionKept s.sce t.sce) :
    t.Placed := by
  unfold State.Placed
  rw [hscs]
  exact h.of_position hsce.1 hsce.2.1 hsce.2.2

/-- A rundown whose records differ in slug, target and overrun flag at most keeps the position. -/
theorem State.Placed.of_rundown {s t : State} (h : s.Placed) {r : List Story}
    (hr : r.map (fun x => (x.number, x.lines)) = s.scs.rundown.map (fun x => (x.number, x.lines)))
    (hscs : t.scs = { s.scs with rundown := r }) (hsce : t.sce = s.sce) : t.Placed := by
  unfold State.Placed
  rw [hscs, hsce]
  refine h.of_order ?_ fun a _ => rfl
  have hlines := congrArg (List.flatMap Prod.snd) hr
  simpa [Store.order, List.flatMap_map] using hlines

theorem State.changeMode_position (s : State) (m : Mode) : PositionKept s.sce (s.changeMode m).sce := by
  rw [State.changeMode_sce]
  split <;> exact ⟨rfl, rfl, rfl⟩

theorem State.writeParam_position (s : State) (p : Param) (v : Nat) : PositionKept s.sce (s.writeParam p v).1.sce := by
  cases p with
  | accel | decel => exact ⟨rfl, rfl, rfl⟩
  | centre n | deadband n | reverse n => simp only [State.writeParam, State.tune]; split <;> exact .refl _
  | frameRate | outFraming o =>
    simp only [State.writeParam, State.writeOutput]; split <;> simpa using PositionKept.refl s.sce
  | paceMin => simp only [State.writeParam, State.writePaceMin]; split <;> exact .refl _
  | holdOver | autoConstant | paceMax | source | threshold | lockEntry => exact .refl _
  | _ =>
    simp only [State.writeParam, State.writeGeometry, State.writeOutput]
    simpa using PositionKept.refl s.sce

theorem serve_placed {s : State} (h : s.Stored) (hp : s.Placed) (l : Link) (tag : Byte) (r : Request)
    (hb : apart [.scs, .sce] (ownerBlocks r) = false) : (serve l tag r s).1.Placed := by
  have hkept (hscs : apart [.scs] (ownerBlocks r) = true) (hsce : PositionKept s.sce (serve l tag r s).1.sce) :
      (serve l tag r s).1.Placed := by
    have hstore : (serve l tag r s).1.scs = s.scs := serve_sameBut l tag r s .scs (by simpa [apart] using hscs)
    exact hp.of_kept hstore hsce
  have hscroll (e : ScrollEngine) (he : PositionKept s.sce e) : PositionKept s.sce (s.changeScroll e).1.sce := by
    simpa [State.changeScroll] using he
  cases r with
  | clrs =>
    have hsce : (serve l tag .clrs s).1.sce = s.sce.clearShow := by
      simp [serve, answered, doClrs, State.clearShow, State.takeReport, Store.clearReport, State.takeClear]
    have hscs : (serve l tag .clrs s).1.scs = Store.empty := by
      simp [serve, answered, doClrs, State.clearShow, State.takeReport, Store.clearReport]
    unfold State.Placed
    rw [hsce, hscs]
    exact ⟨⟨fun _ => rfl, fun _ => rfl⟩, fun _ hn => (by cases hn), Nat.zero_lt_succ _, fun _ => rfl, rfl⟩
  | mspd v =>
    refine hkept rfl ?_
    simp only [serve, answered, doMspd, State.setManualSpeed]
    split
    · exact ⟨rfl, rfl, rfl⟩
    · rw [(State.regrant_frame _).2.2.2.2.2.1]; exact ⟨rfl, rfl, rfl⟩
  | frze => exact hkept rfl (hscroll _ (by unfold ScrollEngine.toggleFreeze; split <;> exact ⟨rfl, rfl, rfl⟩))
  | thaw => exact hkept rfl (hscroll _ (by unfold ScrollEngine.thaw; split <;> exact ⟨rfl, rfl, rfl⟩))
  | rels => exact hkept rfl (hscroll _ (by unfold ScrollEngine.release; split <;> exact ⟨rfl, rfl, rfl⟩))
  | jump k p => exact hkept rfl (by simp only [serve, answered, doJump]; (repeat' split) <;> exact ⟨rfl, rfl, rfl⟩)
  | parm n i v =>
    refine hkept rfl ?_
    simp only [serve, answered, doParm]
    split
    · exact s.writeParam_position _ _
    · exact .refl _
  | mode m =>
    refine hkept rfl ?_
    simp only [serve, answered, doMode]
    (repeat' split)
    · exact .refl _
    · exact .refl _
    · exact .refl _
    · exact s.changeMode_position _
    · exact .refl _
  | ecmt => exact doEcmt_placed h hp l tag
  | qcan el et =>
    simp only [serve, answered, doQcan]
    (repeat' split)
    · exact hp
    · exact hp
    · exact hp
    · next e he => exact State.cancelEntry_placed h hp (List.mem_of_find?_eq_some he)
  | qfrc el et =>
    simp only [serve, answered, doQfrc]
    (repeat' split)
    · exact hp
    · exact hp
    · next e he _ => exact State.forceEntry_placed h hp (List.mem_of_find?_eq_some he) l
    · exact hp
  | tgts n t =>
    simp only [serve, answered, doTgts]
    (repeat' split)
    · exact hp
    · exact hp
    · exact hp.of_rundown (setTarget_lines _ _ _) rfl rfl
  | _ => cases hb

theorem State.takeSettings_placed {s : State} (hp : s.Placed) (v : Settings) : (s.takeSettings v).Placed :=
  hp.of_kept (by simp) (by rw [State.takeSettings_sce]; exact ⟨rfl, rfl, rfl⟩)

theorem State.takeDefaults_placed {s : State} (hp : s.Placed) : s.takeDefaults.Placed :=
  (State.takeSettings_placed hp Settings.defaults).of_same (by simp [State.takeDefaults]) (by simp [State.takeDefaults])

theorem State.takeImage_placed {s : State} (hp : s.Placed) (image : List Word16) : (s.takeImage image).Placed := by
  unfold State.takeImage
  split
  · exact (State.takeSettings_placed hp (settingsOf image)).of_same (by simp) (by simp)
  · exact State.takeDefaults_placed hp

theorem State.leaveLoading_placed {s : State} (hp : s.Placed) : s.leaveLoading.Placed := by
  unfold State.leaveLoading
  split
  · exact hp.of_kept (by simp) (s.changeMode_position _)
  · exact hp

theorem State.backTime_placed {s : State} (hp : s.Placed) : s.backTime.Placed := by
  unfold State.backTime
  split
  · split
    · next x _ => exact hp.of_rundown (markOverrun_lines s.scs.rundown x.number) (by simp) (by simp)
    · exact hp
  · exact hp

theorem exec_placed {c : Instr} {s : State} (h : s.Stored) (hp : s.Placed)
    (hb : apart [.scs, .sce] (eventBlocks c) = false) : Ends State.Placed (exec c s) := by
  cases c with
  | resetLine n =>
    have hempty : Anchored Store.empty ScrollEngine.reset :=
      ⟨⟨fun _ => rfl, fun _ => rfl⟩, fun _ hn => (by cases hn), Nat.zero_lt_succ _, fun _ => rfl, rfl⟩
    exact ends_finish hempty
  | loadCompletion w image =>
    dsimp only [exec, execLoadCompletion]
    split
    · have hread : ({ s.reach w with mem := memoryAtLoad s.mem image } : State).Placed := hp.of_same rfl rfl
      exact ends_finish (State.leaveLoading_placed (State.takeImage_placed hread _))
    · exact ends_finish hp
  | settingsLoadTimeout w =>
    have hreach : (s.reach w).Placed := hp.of_same rfl rfl
    dsimp only [exec, execSettingsLoadTimeout]
    split
    · exact ends_finish (State.leaveLoading_placed (State.takeDefaults_placed hreach))
    · exact ends_finish hreach
  | scrollStep => exact ends_finish (State.scrollStep_placed (s := s.scrollTickTaken) h.1 hp)
  | showTimeTick =>
    have hticked : s.showTimeTickTaken.advanceClock.fireTimers.Placed := hp.of_same (by simp) (by simp)
    exact ends_finish (State.backTime_placed hticked)
  | copyCompletion l =>
    dsimp only [exec, execCopyCompletion]
    (repeat' split)
    · next x hx =>
      have hmem := List.mem_of_find?_eq_some hx
      have hprop := List.find?_some hx
      simp only [Bool.and_eq_true, decide_eq_true_eq] at hprop
      exact ends_finish (hprop.1 ▸ State.copyDone_placed h hp _ hmem hprop.2)
    · exact ends_finish (hp.of_same (by simp) (by simp))
    · exact ends_finish hp
  | queuePass =>
    exact ends_finish (State.pass_placed (s := s.passTaken) (h.of_same rfl ⟨rfl, rfl, rfl⟩) (hp.of_same rfl rfl))
  | _ => cases hb

/-- Settles O7: every move of the anchor is to a line of the script; every change of the script keeps the anchor's line, or
moves the anchor by R43 to R45. -/
theorem stepKeepsAnchor : Obligations.StepKeepsAnchor := by
  intro s t hstore hanchor ht
  refine t.anchorOk_iff.2 (step_leads (P := fun s => s.Stored ∧ s.Placed) (ps := [.scs, .ede, .sce]) (fun u v h hu => ?_)
    (by decide) dependsOn_placed (by decide) (fun _ h => h.2)
    (fun _ _ h => ⟨h.1.of_same rfl ⟨rfl, rfl, rfl⟩, h.2.of_same rfl rfl⟩)
    (fun l tag r _ _ hb h => serve_placed h.1 h.2 l tag r hb) (fun _ _ _ hb h => exec_placed h.1 h.2 hb) s t
    ⟨s.stored_iff.2 hstore, s.anchorOk_iff.1 hanchor⟩ ht)
  exact ⟨dependsOn_stored u v (fun b hb => h b (by revert hb; simp; tauto)) hu.1,
    dependsOn_placed u v (fun b hb => h b (by revert hb; simp; tauto)) hu.2⟩

end Sys2Proof.Machine

/-! PROOFS. The requests of the edit engine: edit slots (R120 to R123), locks and targets (R137 to R139), and the commit with
its checks (R124 to R126). -/

namespace Sys2Proof.Machine

/-! ### A request answered -/

/-- What an owner leaves alone, a request leaves alone but for the link it answers. -/
theorem SameBut.answered {bs : List Block} {s u : State} (h : SameBut bs s u) (l : Link) (i : LinkIface) :
    SameBut (bs ++ [linkBlock l]) s (u.setLink l i) := h.comp (State.setLink_sameBut u l i)

/-- A request whose owner changes nothing: the answer is all (R173). -/
theorem exec_unchanged {c : Instr} {link : Link} {tag : Byte} {r : Request} {s : State} {st : Status}
    (hs : s.settled = true) (hr : s.linkReady link = true) (hc : c.request? = some (link, tag, r))
    (hi : Instr.instantsPast c s.tbp.now) (hp : link = .rundown → rundownPermitted r.mnem = true)
    (hw : r.wellFormed = true) (hserve : serve link tag r s = (s, some st)) :
    ∃ t, exec c s = .next t ∧ t.link link = answeredWith (s.link link) tag r.mnem st ∧ SameBut [linkBlock link] s t :=
  ⟨_, exec_answered_plain hs hr hc hi hp hw hserve rfl rfl, by simp, State.setLink_sameBut s link _⟩

/-- A request whose owner writes the edit engine only. -/
theorem exec_edeOnly {c : Instr} {link : Link} {tag : Byte} {r : Request} {s u : State} {st : Status}
    (hs : s.settled = true) (hr : s.linkReady link = true) (hc : c.request? = some (link, tag, r))
    (hi : Instr.instantsPast c s.tbp.now) (hp : link = .rundown → rundownPermitted r.mnem = true)
    (hw : r.wellFormed = true) (hserve : serve link tag r s = (u, some st)) (hu : SameBut [.ede] s u) :
    ∃ t, exec c s = .next t ∧ t.ede = u.ede ∧ t.link link = answeredWith (s.link link) tag r.mnem st ∧
      SameBut [.ede, linkBlock link] s t :=
  ⟨_, exec_answered_plain hs hr hc hi hp hw hserve (hu .cli (by decide)) (hu .rli (by decide)), by simp, by simp,
    hu.answered link _⟩

/-- A request refused by its owner, with the record that is written (R140, R174). -/
theorem exec_refused {c : Instr} {link : Link} {tag : Byte} {r : Request} {s : State} {cause : Cause} {detail : Nat}
    (hs : s.settled = true) (hr : s.linkReady link = true) (hc : c.request? = some (link, tag, r))
    (hi : Instr.instantsPast c s.tbp.now) (hp : link = .rundown → rundownPermitted r.mnem = true)
    (hw : r.wellFormed = true)
    (hserve : serve link tag r s = answered (refuse s link r.mnem cause detail)) :
    ∃ t, exec c s = .next t ∧ t.ede = { s.ede with refusal := some ⟨link, r.mnem, cause, detail⟩ } ∧
      t.link link = answeredWith (s.link link) tag r.mnem (.refused cause detail) ∧
      SameBut [.ede, linkBlock link] s t :=
  exec_edeOnly hs hr hc hi hp hw hserve (refuse_sameBut s link r.mnem cause detail)

/-- A request answered by an owner that may raise notices: the response is the last frame due on its link (R173, R177). -/
theorem exec_lastAnswers {c : Instr} {link : Link} {tag : Byte} {r : Request} {s u : State} {st : Status}
    (hr : s.linkReady link = true) (hc : c.request? = some (link, tag, r)) (hi : Instr.instantsPast c s.tbp.now)
    (hp : link = .rundown → rundownPermitted r.mnem = true) (hw : r.wellFormed = true)
    (hserve : serve link tag r s = (u, some st)) :
    ∃ t, exec c s = .next t ∧
      t.link link = LinkIface.pump { u.link link with
        responseQueue := (u.link link).responseQueue ++ [⟨tag, r.mnem.bytes, st⟩] } ∧
      (t.link link).lastAnswers tag r.mnem st ∧ (∀ m, m ≠ link → t.link m = (u.link m).pump) ∧
      SameBut [.cli, .rli] u t := by
  simp only [State.linkReady, Bool.and_eq_true, decide_eq_true_eq] at hr
  have hlink : (u.respond link tag r.mnem.bytes st).link link = { u.link link with
      responseQueue := (u.link link).responseQueue ++ [⟨tag, r.mnem.bytes, st⟩] } := by
    rw [State.respond]
    exact State.setLink_link_same _ _ _
  refine ⟨(u.respond link tag r.mnem.bytes st).settle, ?_, ?_, ?_, fun m hm => ?_, ?_⟩
  · rw [exec_request hc hi, State.takeRequest_free hr.1, State.deliver_serve hr.2 hp hw, hserve]
    rfl
  · rw [State.settle_link, hlink]
  · rw [State.settle_link, hlink, LinkIface.lastAnswers, LinkIface.pump_outbox_getLast (by simp)]
    simp [LinkIface.outbox]
  · rw [State.settle_link, State.respond, State.setLink_link, if_neg hm]
  · cases link <;> simp [sameBut_iff, State.respond]

theorem State.setSlot_sameBut (s : State) (l : Link) (x : EditSlot) : SameBut [.ede] s (s.setSlot l x) := by
  simp [sameBut_iff]

/-! ### Edit slots (R120 to R123) -/

/-- A slot by its code: CLOSED, OPEN or COPYING (R120). -/
theorem EditSlot.code_eq_two {x : EditSlot} (h : x.code = 2) : ∃ e n p, x = .copying e n p := by
  cases x with
  | copying e n p => exact ⟨e, n, p, rfl⟩
  | _ => cases h

theorem State.slot_of_ede {s t : State} (h : t.ede = s.ede) : t.slot = s.slot := by
  funext l
  cases l <;> simp [State.slot, h]

theorem eopn_wellFormed {e : EditParams} {n : Nat} (hw : e.wellFormed = true) (hn : countInRange e n = true) :
    (Request.eopn (some e) n).wellFormed = true := by
  have hlt : n < 65536 := by cases e <;> simp [countInRange] at hn <;> omega
  simp [Request.wellFormed, hw, hlt]

theorem doEopn_copying {s : State} {l : Link} (h : (s.slot l).code = 2) {e : EditParams} {n : Nat}
    (he : editInRange e = true) (hn : countInRange e n = true) : doEopn l (some e) n s = (s, .busy) := by
  obtain ⟨e', n', p, hslot⟩ := EditSlot.code_eq_two h
  simp [doEopn, he, hn, hslot]

theorem doEopn_opens {s : State} {l : Link} (h : (s.slot l).code ≠ 2) {e : EditParams} {n : Nat}
    (he : editInRange e = true) (hn : countInRange e n = true) :
    doEopn l (some e) n s = (s.setSlot l (.opened (takenEdit e) n freshPage), .ok (u8 e.code ++ u16 n)) := by
  cases hslot : s.slot l with
  | copying e' n' p => exact absurd (by rw [hslot]; rfl) h
  | _ => simp [doEopn, he, hn, hslot]

theorem doEabn_copying {s : State} {l : Link} (h : (s.slot l).code = 2) : doEabn l s = (s, .busy) := by
  obtain ⟨e, n, p, hslot⟩ := EditSlot.code_eq_two h
  simp [doEabn, hslot]

/-- A closed slot written CLOSED is the slot it was. -/
theorem State.setSlot_closed {s : State} {l : Link} (h : s.slot l = .closed) : s.setSlot l .closed = s := by
  cases l <;> simp_all [State.setSlot, State.slot] <;> rw [← h]

theorem doEabn_closes {s : State} {l : Link} (h : (s.slot l).code ≠ 2) : doEabn l s = (s.setSlot l .closed, .ok []) := by
  cases hslot : s.slot l with
  | copying e n p => exact absurd (by rw [hslot]; rfl) h
  | closed => simp [doEabn, hslot, State.setSlot_closed hslot]
  | opened e n p => simp [doEabn, hslot]

theorem doElin_noEdit {s : State} {l : Link} (h : (s.slot l).code ≠ 1) (k st m : Nat) (c : Option Nat)
    (tx : List CharCell) : doElin l k st m c tx s = refuse s l .elin .noEdit k := by
  cases hslot : s.slot l with
  | opened e n p => exact absurd (by rw [hslot]; rfl) h
  | _ => simp [doElin, hslot]

/-- The codes of a style and a mark read back as the content they spell, the text cut to 48 cells (R122). -/
theorem contentOf?_codes (style : Style) (mark : Mark) (hcue : ∀ c, mark.cue? = some c → c < 256) (text : List CharCell) :
    contentOf? style.code mark.code mark.cue? text = some ⟨style, mark, text.take 48⟩ := by
  have hstyle : styleOfCode? style.code = some style := by cases style <;> rfl
  have hmark : markOf? mark.code mark.cue? = some mark := by
    cases mark with
    | cue n =>
      have hn : n ≤ 255 := Nat.le_of_lt_succ (hcue n rfl)
      simp [markOf?, Mark.code, Mark.cue?, hn]
    | _ => rfl
  rw [contentOf?, hstyle, hmark]
  rfl

theorem doElin_writes {s : State} {l : Link} {e : EditParams} {n k : Nat} {page : Page} (h : s.slot l = .opened e n page)
    (hk : k < n) (style : Style) (mark : Mark) (hcue : ∀ c, mark.cue? = some c → c < 256) (text : List CharCell) :
    doElin l k style.code mark.code mark.cue? text s =
      (s.setSlot l (.opened e n (page.set k (some ⟨style, mark, text.take 48⟩))),
        .ok (u8 k ++ u8 (text.take 48).length)) := by
  simp only [doElin, h, contentOf?_codes style mark hcue text, if_pos hk]

theorem optFits_of {b : Nat → Bool} {o : Option Nat} (h : ∀ c, o = some c → b c = true) : optFits b o = true := by
  cases o with
  | none => rfl
  | some c => exact h c rfl

/-- Settles O35: what each owner answers, by the state of the link's slot. -/
theorem editSlotRequests : Obligations.EditSlotRequests := by
  refine ⟨fun link tag e n s hs hr hcode => ⟨fun hw he hn => ?_, ?_⟩,
    fun link tag e n s hs hr hcode => ⟨fun hw he hn => ?_, ?_⟩, ?_, ?_⟩
  · obtain ⟨t, ht, hede, hlink, hsame⟩ := exec_edeOnly (c := .eopn link tag (some e) n) hs hr rfl
      (instantsPast_of_ne (by simp)) (by simp [rundownPermitted, Request.mnem]) (eopn_wellFormed hw hn)
      (congrArg answered (doEopn_opens hcode he hn)) (s.setSlot_sameBut link _)
    have hslot : t.slot link = .opened (takenEdit e) n (List.replicate 64 none) := by
      rw [State.slot_of_ede hede]
      exact s.setSlot_slot_same link _
    exact ⟨t, ht, hslot, by rw [hslot, hede]; rfl, hlink, hsame⟩
  · exact exec_edeOnly (c := .eabn link tag) hs hr rfl (instantsPast_of_ne (by simp))
      (by simp [rundownPermitted, Request.mnem]) rfl (congrArg answered (doEabn_closes hcode)) (s.setSlot_sameBut link _)
  · exact exec_unchanged (c := .eopn link tag (some e) n) hs hr rfl (instantsPast_of_ne (by simp))
      (by simp [rundownPermitted, Request.mnem]) (eopn_wellFormed hw hn) (congrArg answered (doEopn_copying hcode he hn))
  · exact exec_unchanged (c := .eabn link tag) hs hr rfl (instantsPast_of_ne (by simp))
      (by simp [rundownPermitted, Request.mnem]) rfl (congrArg answered (doEabn_copying hcode))
  · intro link tag k style mark cue text s hs hr hcode hk hstyle hmark hcue htext
    refine exec_refused (c := .elin link tag k style mark cue text) hs hr rfl (instantsPast_of_ne (by simp))
      (by simp [rundownPermitted, Request.mnem]) ?_ (congrArg answered (doElin_noEdit hcode k style mark cue text))
    have hfits : optFits fits8 cue = true := optFits_of fun c hc => by simpa using hcue c hc
    simp [Request.wellFormed, hk, hstyle, hmark, hfits, htext]
  · intro link tag e n k page style mark text s hs hr hslot hk hn hcue htext
    refine exec_edeOnly (c := .elin link tag k style.code mark.code mark.cue? text) hs hr rfl
      (instantsPast_of_ne (by simp)) (by simp [rundownPermitted, Request.mnem]) ?_
      (congrArg answered (doElin_writes hslot hk style mark hcue text)) (s.setSlot_sameBut link _)
    have hfits : optFits fits8 mark.cue? = true := optFits_of fun c hc => by simpa using hcue c hc
    have hstyle : style.code < 256 := by cases style <;> decide
    have hmark : mark.code < 256 := by cases mark <;> simp [Mark.code]
    have hk' : k < 256 := by omega
    simp [Request.wellFormed, hk', hstyle, hmark, hfits, htext]

/-! ### Locks and targets (R137 to R139) -/

/-- Settles O41: both owners by their own tests, the fields of the requests within their widths. -/
theorem locksAndTargets : Obligations.LocksAndTargets := by
  refine ⟨fun tag k old new s hs hr hk hold hnew => ?_, fun link tag n target s hs hr hn htarget hstory hlock => ?_⟩
  · simp only [LockEntry.ok, Bool.and_eq_true, decide_eq_true_eq] at hnew
    obtain ⟨⟨hlow, hle⟩, hhigh⟩ := hnew
    have hrange : (storyInRange new.low && storyInRange new.high && decide (new.low ≤ new.high)) = true := by
      simp only [storyInRange, Bool.and_eq_true, decide_eq_true_eq]
      omega
    have hfits : (Request.slck k new.low new.high new.console new.rundown new.sticky new.inUse).wellFormed = true := by
      simp only [Request.wellFormed, Bool.and_eq_true, fits8_iff, fits16_iff]
      omega
    refine ⟨fun hsticky => ?_, fun hsticky => ?_⟩
    · have hwrite : doSlck .console k new s =
          ({ s with ede := { s.ede with locks := s.ede.locks.set k new } }.passFollows, .ok (lockData new)) := by
        simp only [doSlck, hold, hrange, hsticky]
        rfl
      exact exec_edeOnly (link := .console) (r := .slck k new.low new.high new.console new.rundown new.sticky new.inUse) hs hr
        rfl (instantsPast_of_ne (by simp)) (by simp) hfits (congrArg answered hwrite) (by simp [sameBut_iff])
    · have hrefuse : doSlck .console k new s = refuse s .console .slck .sticky k := by
        simp only [doSlck, hold, hrange, hsticky]
        rfl
      exact exec_refused (link := .console) (r := .slck k new.low new.high new.console new.rundown new.sticky new.inUse) hs hr
        rfl (instantsPast_of_ne (by simp)) (by simp) hfits (congrArg answered hrefuse)
  · have hfits : (Request.tgts n target).wellFormed = true := by
      have htargets : optFits fits32 target = true := optFits_of fun v hv => by simpa using htarget v hv
      simp [Request.wellFormed, hn, htargets]
    have hwrite : doTgts link n target s =
        ({ s with scs := { s.scs with rundown := setTarget s.scs.rundown n target } }, .ok (u16 n ++ opt u32 target)) := by
      rw [doTgts, if_neg (by simpa [Option.isNone_iff_eq_none] using Option.isSome_iff_ne_none.1 hstory), if_neg (by simp [hlock])]
    have hframe : SameBut [.scs] s { s with scs := { s.scs with rundown := setTarget s.scs.rundown n target } } := by
      simp [sameBut_iff]
    exact ⟨_, exec_answered_plain hs hr rfl (instantsPast_of_ne (by simp)) (by simp [rundownPermitted, Request.mnem]) hfits
      (congrArg answered hwrite) rfl rfl, by simp; rfl, by simp; rfl, hframe.answered link _⟩

/-! ### The commit's checks (R124, R125, R137) -/

/-- The checks in order: the first that fails decides (R124). -/
theorem failUnless_eq_none {b : Bool} {c : Cause} {d : Nat} (h : b = true) : failUnless b c d = none := if_pos h

theorem failUnless_eq_some {b : Bool} {c : Cause} {d : Nat} (h : b = false) : failUnless b c d = some (c, d) := by
  rw [failUnless, h]; rfl

theorem lowestUnwritten_none {page : Page} {n : Nat} (h : ∀ j, j < n → page.getD j none ≠ none) :
    lowestUnwritten? page n = none := by
  rw [lowestUnwritten?, List.find?_eq_none]
  intro j hj
  simpa [Option.isNone_iff_eq_none] using h j (List.mem_range.1 hj)

theorem lowestUnwritten_some {page : Page} {n k : Nat} (hk : k < n) (hnone : page.getD k none = none)
    (h : ∀ j, j < k → page.getD j none ≠ none) : lowestUnwritten? page n = some k := by
  rw [lowestUnwritten?, List.find?_range_eq_some]
  refine ⟨by simp only [hnone, Option.isNone_none], List.mem_range.2 hk, fun j hj => ?_⟩
  simpa [Option.isSome_iff_ne_none] using h j hj

/-- The lock check of a link for a story, from the table (R137). -/
theorem EditEngine.lockedFor_iff (ed : EditEngine) (link : Link) (m : Nat) : ed.lockedFor link m = true ↔
    ∃ k ∈ ed.locks, k.inUse = true ∧ k.low ≤ m ∧ m ≤ k.high ∧ (if link = .console then k.console else k.rundown) = false := by
  simp only [EditEngine.lockedFor, List.any_eq_true, LockEntry.covers, Bool.and_eq_true, decide_eq_true_eq,
    Bool.not_eq_true', and_assoc]
  refine exists_congr fun k => and_congr_right fun _ => and_congr_right fun _ => and_congr_right fun _ =>
    and_congr_right fun _ => ?_
  cases link <;> rfl

theorem EditEngine.lockCheck_eq (ed : EditEngine) (link : Link) (e : EditParams) : ed.lockCheck link e =
    if ∃ k ∈ ed.locks, k.inUse = true ∧ k.low ≤ editStory e ∧ editStory e ≤ k.high ∧
      (if link = .console then k.console else k.rundown) = false then some (.locked, editStory e) else none := by
  rw [EditEngine.lockCheck]
  cases hl : ed.lockedFor link (editStory e) with
  | true => rw [if_pos ((ed.lockedFor_iff link _).1 hl)]; rfl
  | false => rw [if_neg fun h => by simp [(ed.lockedFor_iff link _).2 h] at hl]; rfl

/-- The checks before the evaluation's own, in order (R124 checks 2 to 4). -/
theorem State.commitChecks_cases (link : Link) (tag : Byte) (e : EditParams) (n k : Nat) (page : Page) (s : State) :
    (k < n → page.getD k none = none → (∀ j, j < k → page.getD j none ≠ none) →
      s.commitChecks link tag e n page = some (.incomplete, k)) ∧
    ((∀ j, j < n → page.getD j none ≠ none) →
      (4 ≤ s.ede.queue.length → s.commitChecks link tag e n page = some (.queueFull, tag.toNat)) ∧
      (s.ede.queue.length < 4 → (∃ q ∈ s.ede.queue, q.link = link ∧ q.tag = tag) →
        s.commitChecks link tag e n page = some (.duplicateTag, tag.toNat)) ∧
      (s.ede.queue.length < 4 → (∀ q ∈ s.ede.queue, q.link = link → q.tag ≠ tag) →
        s.commitChecks link tag e n page = s.entryChecks link e n)) := by
  refine ⟨fun hk hnone hwritten => ?_, fun hwritten => ⟨fun hfull => ?_, fun hroom hdup => ?_, fun hroom hnew => ?_⟩⟩
  · rw [State.commitChecks, lowestUnwritten_some hk hnone hwritten]
    rfl
  · rw [State.commitChecks, Config.commitQueueMax, lowestUnwritten_none hwritten,
      failUnless_eq_some (decide_eq_false (not_lt.2 hfull))]
    rfl
  · have hany : s.ede.queue.any (fun q => q.link = link && q.tag = tag) = true := by simpa using hdup
    rw [State.commitChecks, Config.commitQueueMax, lowestUnwritten_none hwritten, failUnless_eq_none (decide_eq_true hroom),
      failUnless_eq_some (by simp [hany])]
    rfl
  · have hany : s.ede.queue.any (fun q => q.link = link && q.tag = tag) = false := by
      simpa [List.any_eq_false] using hnew
    rw [State.commitChecks, Config.commitQueueMax, lowestUnwritten_none hwritten, failUnless_eq_none (decide_eq_true hroom),
      failUnless_eq_none (by simp [hany])]
    rfl

section
variable {link : Link} {n m : Nat} {locked : Option (Cause × Nat)} {s : State}
  (hlocked : locked = (if ∃ k ∈ s.ede.locks, k.inUse = true ∧ k.low ≤ m ∧ m ≤ k.high ∧
    (if link = .console then k.console else k.rundown) = false then some (.locked, m) else none))
include hlocked

/-- The three checks of an evaluation, the lock check by its table (R131 step 2). -/
theorem State.entryChecks_eq {e : EditParams} (he : editStory e = m) :
    s.entryChecks link e n = ((s.scs.structural e).or locked).or (s.scs.limit e n) := by
  rw [State.entryChecks, EditEngine.lockCheck_eq, he, ← hlocked]

/-- The checks of an edit of a story that the rundown does not hold (R125, R137). -/
theorem State.entryChecks_absent (hm : s.scs.story? m = none) (f g : Nat) (after target : Option Nat)
    (slug : Option (List CharCell)) :
    (∀ e ∈ [EditParams.linesReplace m f g, .linesInsert m after, .storyDrop m, .storyMove m after],
      s.entryChecks link e n = some (.unknownStory, m)) ∧
    s.entryChecks link (.storyInsert m none slug target) n =
      locked.or (if 256 ≤ s.scs.rundown.length then some (.rundownFull, m) else none) ∧
    s.entryChecks link (.storyInsert m (some f) slug target) n =
      if s.scs.story? f = none then some (.unknownStory, f)
      else locked.or (if 256 ≤ s.scs.rundown.length then some (.rundownFull, m) else none) := by
  have hroom : failUnless (decide (s.scs.rundown.length < Config.storiesMax)) .rundownFull m =
      if 256 ≤ s.scs.rundown.length then some (Cause.rundownFull, m) else none := by
    unfold failUnless Config.storiesMax
    split <;> simp_all
  refine ⟨fun e he => ?_, ?_, ?_⟩
  · simp only [List.mem_cons, List.not_mem_nil, or_false] at he
    rcases he with rfl | rfl | rfl | rfl <;> rw [State.entryChecks_eq hlocked rfl] <;>
      simp [Store.structural, Store.storyCheck, failUnless, hm]
  · rw [State.entryChecks_eq hlocked rfl]
    simp [Store.structural, Store.afterCheck, failUnless_eq_none, hm, Store.limit, ← hroom]
  · rw [State.entryChecks_eq hlocked rfl]
    cases hf : s.scs.story? f <;>
      simp [Store.structural, Store.afterCheck, Store.storyCheck, failUnless_eq_none, failUnless_eq_some, hm, hf, Store.limit,
        ← hroom]

/-- The checks of an edit of a story of the rundown (R125, R137). -/
theorem State.entryChecks_present {a : Story} (ha : s.scs.story? m = some a) (f g : Nat) (after target : Option Nat)
    (slug : Option (List CharCell)) :
    s.entryChecks link (.linesReplace m f g) n =
      (if f ∉ a.lines then some (.badSpan, f)
      else if g ∉ a.lines ∨ a.lines.idxOf g < a.lines.idxOf f then some (.badSpan, g)
      else locked.or (if 2048 < a.lines.length - (a.lines.idxOf g + 1 - a.lines.idxOf f) + n then
        some (.storyFull, m) else none)) ∧
    s.entryChecks link (.linesInsert m none) n =
      locked.or (if 2048 < a.lines.length + n then some (.storyFull, m) else none) ∧
    s.entryChecks link (.linesInsert m (some f)) n =
      (if f ∉ a.lines then some (.badSpan, f)
      else locked.or (if 2048 < a.lines.length + n then some (.storyFull, m) else none)) ∧
    s.entryChecks link (.storyInsert m after slug target) n = some (.storyExists, m) ∧
    s.entryChecks link (.storyDrop m) n = locked ∧ s.entryChecks link (.storyMove m none) n = locked ∧
    s.entryChecks link (.storyMove m (some m)) n = some (.badSpan, m) ∧
    (f ≠ m → s.entryChecks link (.storyMove m (some f)) n =
      if s.scs.story? f = none then some (.unknownStory, f) else locked) := by
  have hroom (k : Nat) : failUnless (decide (k ≤ Config.storyLinesMax)) .storyFull m =
      if 2048 < k then some (Cause.storyFull, m) else none := by
    unfold failUnless Config.storyLinesMax
    split <;> simp_all
  refine ⟨?_, ?_, ?_, ?_, ?_, ?_, ?_, fun hne => ?_⟩
  · rw [State.entryChecks_eq hlocked rfl]
    simp only [Store.structural, ha, spanCheck, List.contains_eq_mem]
    by_cases hf : f ∈ a.lines
    · by_cases hg : g ∉ a.lines ∨ a.lines.idxOf g < a.lines.idxOf f
      · have hbad : (decide (g ∈ a.lines) && decide (a.lines.idxOf f ≤ a.lines.idxOf g)) = false := by
          rcases hg with hg | hg
          · simp [hg]
          · simp [hg]
        simp [hf, hg, failUnless_eq_some hbad]
      · obtain ⟨hmem, hle⟩ := not_or.1 hg
        have hmem := not_not.1 hmem
        have hle := not_lt.1 hle
        have hspan : (spanOf a.lines f g).length = a.lines.idxOf g + 1 - a.lines.idxOf f := by
          have hlt := List.idxOf_lt_length_of_mem hmem
          simp only [spanOf, List.length_take, List.length_drop]
          omega
        have hgood : (decide (g ∈ a.lines) && decide (a.lines.idxOf f ≤ a.lines.idxOf g)) = true := by simp [hmem, hle]
        simp [hf, hg, failUnless_eq_none hgood, Store.limit, Store.linesIn, ha, Store.removedBy, hspan, hroom]
    · simp [hf]
  · rw [State.entryChecks_eq hlocked rfl]
    simp [Store.structural, ha, Store.limit, Store.linesIn, hroom]
  · rw [State.entryChecks_eq hlocked rfl]
    by_cases hf : f ∈ a.lines
    · simp [Store.structural, ha, Store.limit, Store.linesIn, hroom, hf, failUnless_eq_none]
    · simp [Store.structural, ha, hf, failUnless_eq_some]
  · rw [State.entryChecks_eq hlocked rfl]
    simp [Store.structural, ha, failUnless_eq_some]
  · rw [State.entryChecks_eq hlocked rfl]
    simp [Store.structural, Store.storyCheck, ha, failUnless_eq_none, Store.limit]
  · rw [State.entryChecks_eq hlocked rfl]
    simp [Store.structural, Store.storyCheck, Store.afterCheck, ha, failUnless_eq_none, Store.limit]
  · rw [State.entryChecks_eq hlocked rfl]
    simp [Store.structural, Store.storyCheck, Store.afterCheck, ha, failUnless_eq_none, failUnless_eq_some]
  · rw [State.entryChecks_eq hlocked rfl]
    cases hf : s.scs.story? f <;>
      simp [Store.structural, Store.storyCheck, Store.afterCheck, ha, hf, hne, failUnless_eq_none, failUnless_eq_some,
        Store.limit]

end

/-! ### Commits accepted and refused (R124, R126) -/

theorem doEcmt_refused {s : State} {l : Link} {tag : Byte} {e : EditParams} {n detail : Nat} {page : Page} {cause : Cause}
    (hslot : s.slot l = .opened e n page)
    (h : s.commitChecks l tag e n page = some (cause, detail) ∨
      (s.commitChecks l tag e n page = none ∧ s.scs.reserve n = .error cause ∧ detail = tag.toNat)) :
    doEcmt l tag s = refuse s l .ecmt cause detail := by
  rcases h with hcheck | ⟨hcheck, hreserve, rfl⟩
  · simp only [doEcmt, hslot, hcheck]
  · simp only [doEcmt, hslot, hcheck, hreserve]

theorem doEcmt_noEdit {s : State} {l : Link} (h : (s.slot l).code ≠ 1) (tag : Byte) :
    doEcmt l tag s = refuse s l .ecmt .noEdit tag.toNat := by
  cases hslot : s.slot l with
  | opened e n p => exact absurd (by rw [hslot]; rfl) h
  | _ => simp [doEcmt, hslot]

theorem doEcmt_accepted {s : State} {l : Link} {tag : Byte} {e : EditParams} {n : Nat} {page : Page} {st : Store}
    {lids : List Nat} (hslot : s.slot l = .opened e n page) (hcheck : s.commitChecks l tag e n page = none)
    (hreserve : s.scs.reserve n = .ok (st, lids)) :
    doEcmt l tag s = (s.startCopy l tag e n page st lids,
      .ok ([tag] ++ u8 s.ede.queue.length ++ opt u24 lids.head? ++ u8 lids.length)) := by
  simp only [doEcmt, hslot, hcheck, hreserve]
  rfl

theorem copyingEntry?_append {q : List Entry} {l : Link} (h : copyingEntry? q l = none) (tag : Byte) (e : EditParams)
    (lids : List Nat) : copyingEntry? (q ++ [newEntry l tag e lids]) l = some (newEntry l tag e lids) := by
  rw [copyingEntry?] at h
  simp [copyingEntry?, List.find?_append, h, newEntry]

theorem EditsKept.slot {s t : State} (h : EditsKept s.ede t.ede) : t.slot = s.slot := by
  obtain ⟨-, hconsole, hrundown⟩ := h
  funext l
  cases l
  exacts [hconsole, hrundown]

/-- A pass leaves the edit slots alone (R131). -/
theorem State.pass_slot (s : State) : s.pass.slot = s.slot := by
  have hends := s.pass_ends
  generalize s.pass = t at hends
  cases hends with
  | kept u q hu => exact State.slot_of_ede (s := s) (hu .ede (by decide)) ▸ rfl
  | removed u before before' after e cause detail hu =>
    rw [(State.dropEntry_passes _ _ _).edits.slot]
    exact State.slot_of_ede (s := s) (hu .ede (by decide)) ▸ rfl
  | applied u before before' after e hu =>
    rw [(State.applyEntry_passes _ _).edits.slot]
    exact State.slot_of_ede (s := s) (hu .ede (by decide)) ▸ rfl

/-- A completed copy closes its slot (R128). -/
theorem State.copyDone_slot (s : State) (l : Link) (page : Page) (e : Entry) :
    (s.copyDone l page e).slot l = .closed := by
  have hpage (q : List Entry) : ((s.pageCopied l page e).setQueue q).slot l = .closed := by
    have hqueue : ((s.pageCopied l page e).setQueue q).slot = (s.pageCopied l page e).slot := funext fun m => by cases m <;> rfl
    rw [hqueue, State.pageCopied, State.setSlot_slot_same]
  rw [State.copyDone_eq]
  split
  · rw [(State.dropEntry_passes _ _ _).edits.slot, hpage]
  · rw [State.pass_slot, hpage]

/-- Settles O36: the checks case by case, then the acceptance, an empty copy completing with it, and the refusals. -/
theorem commitAcceptedOrRefused : Obligations.CommitAcceptedOrRefused := by
  refine ⟨?_, ?_, ?_, fun link tag e n k page s => State.commitChecks_cases link tag e n k page s, ?_⟩
  · intro link tag e n page st lids s accepted hs hr hslot hcheck hreserve haccepted
    have haccept : s.acceptCommit link tag e n page st lids = accepted := haccepted.symm
    have hdo := doEcmt_accepted hslot hcheck hreserve
    refine ⟨fun hn => ?_, fun hn hfree => ?_⟩
    · rw [State.startCopy_of_pos hn, haccept] at hdo
      have hframe : SameBut [.scs, .ede] s accepted := haccept ▸ s.acceptCommit_sameBut link tag e n page st lids
      have hstore : accepted.scs = st := by rw [← haccept]; simp [State.acceptCommit]
      have hcopying : accepted.slot link = .copying e n page := by rw [← haccept]; simp
      exact ⟨_, exec_answered_plain hs hr rfl (instantsPast_of_ne (by simp)) (by simp [rundownPermitted, Request.mnem]) rfl
        (congrArg answered hdo) (hframe .cli (by decide)) (hframe .rli (by decide)), by simp [hstore],
        by rw [State.slot_of_ede (s := accepted) (by simp)]; exact hcopying, by simp, by simp; rfl, hframe.answered link _⟩
    · subst hn
      rw [State.startCopy_zero, haccept] at hdo
      obtain ⟨t, ht, -, hanswers, -, hut⟩ := exec_lastAnswers (c := .ecmt link tag) (r := .ecmt) hr rfl
        (instantsPast_of_ne (by simp)) (by simp [rundownPermitted, Request.mnem]) rfl (congrArg answered hdo)
      have hcomplete : exec (.copyCompletion link) accepted =
          finish (accepted.copyDone link page (newEntry link tag e lids)) := by
        have hcopying : accepted.slot link = .copying e 0 page := by rw [← haccept]; simp
        have hentry : copyingEntry? accepted.ede.queue link = some (newEntry link tag e lids) := by
          rw [← haccept, State.acceptCommit_queue]
          exact copyingEntry?_append hfree tag e lids
        simp only [exec, execCopyCompletion, hcopying, hentry]
      have hclosed : t.slot link = .closed := by
        rw [State.slot_of_ede (hut .ede (by decide)), State.copyDone_slot]
      refine ⟨t, _, ht, hcomplete, hclosed, hut .scs (by decide), hut .ede (by decide), hut .sce (by decide),
        hut .wst (by decide), hanswers, ?_⟩
      have hframe := doEcmt_sameBut link tag s
      rw [hdo] at hframe
      exact hframe.trans (hut.mono (by simp))
  · intro link tag e n detail page cause s hs hr hslot h
    exact exec_refused (c := .ecmt link tag) hs hr rfl (instantsPast_of_ne (by simp))
      (by simp [rundownPermitted, Request.mnem]) rfl (congrArg answered (doEcmt_refused hslot h))
  · intro link tag s hs hr hcode
    exact exec_refused (c := .ecmt link tag) hs hr rfl (instantsPast_of_ne (by simp))
      (by simp [rundownPermitted, Request.mnem]) rfl (congrArg answered (doEcmt_noEdit hcode tag))
  · intro link n m f g after target slug locked s hlocked
    exact ⟨fun hm => State.entryChecks_absent hlocked hm f g after target slug,
      fun a ha => State.entryChecks_present hlocked ha f g after target slug⟩

end Sys2Proof.Machine

/-! PROOFS. The guard window (R129, R130), what a pass takes (R131), what an apply does to the engine (R43 to R45), copy
completion (R128), cancel and force (R134, R135), and CLEAR SHOW (R19, R50). -/

namespace Sys2Proof.Machine

/-! ### Affected spans (R129) -/

section
variable {st : Store} {before rest : List Story} {a : Story} (hnum : (st.rundown.map (·.number)).Nodup)
  (hcut : st.rundown = before ++ a :: rest)
include hnum hcut

theorem Store.story?_at : st.story? a.number = some a := by
  rw [Store.story?, hcut]
  exact findStory_at (numbers_around (hcut ▸ hnum))

theorem Store.linesOf_at : st.linesOf a.number = a.lines := by
  simp only [Store.linesOf, st.story?_at hnum hcut]

theorem Store.affectedSpan_replace {l1 span l2 : List Nat} {f g : Nat} (horder : st.order.Nodup)
    (hlines : a.lines = l1 ++ span ++ l2) (hf : span.head? = some f) (hg : span.getLast? = some g) :
    st.affectedSpan (.linesReplace a.number f g) = span := by
  have hnodup : a.lines.Nodup := (List.nodup_flatMap.1 horder).1 a (by simp [hcut])
  simp only [Store.affectedSpan, Store.removedBy, st.story?_at hnum hcut]
  rw [hlines, spanOf_at (hlines ▸ hnodup) hf hg]

theorem insertionNeighbours_at : insertionNeighbours st.rundown (some a.number) =
    ((before ++ [a]).flatMap (·.lines)).getLast?.toList ++ (rest.flatMap (·.lines)).head?.toList := by
  rw [hcut, insertionNeighbours, splitAfter_at (numbers_around (hcut ▸ hnum))]

end

theorem insertionNeighbours_none (r : List Story) :
    insertionNeighbours r none = (r.flatMap (·.lines)).head?.toList := by
  simp [insertionNeighbours, splitAfter]

theorem Store.affectedSpan_insert {st : Store} {l1 l2 : List Nat} {g : Nat} (horder : st.order.Nodup)
    (hcut : st.order = l1 ++ g :: l2) (n : Nat) :
    st.affectedSpan (.linesInsert n (some g)) = g :: l2.head?.toList := by
  rw [Store.affectedSpan, Store.insertSpan, Store.lineAfter?_cut (front := l1) (back := l2) horder (by simpa using hcut)
    (by simp)]

/-- The new place of a moved story, in the rundown without it. -/
theorem Store.affectedSpan_move {st : Store} {front back before rest : List Story} {x a : Story}
    (hnum : (st.rundown.map (·.number)).Nodup) (hcut : st.rundown = front ++ x :: back)
    (hplace : front ++ back = before ++ a :: rest) :
    st.affectedSpan (.storyMove x.number (some a.number)) = x.lines ++
      ((before ++ [a]).flatMap (·.lines)).getLast?.toList ++ (rest.flatMap (·.lines)).head?.toList := by
  have hkept : ((before ++ a :: rest).map (·.number)).Nodup := by
    rw [← hplace]
    exact (hcut ▸ hnum).sublist ((List.sublist_append_right [x] back).append_left front |>.map _)
  rw [Store.affectedSpan, st.linesOf_at hnum hcut, hcut, withoutStory_at (numbers_around (hcut ▸ hnum)), hplace,
    insertionNeighbours, splitAfter_at (numbers_around hkept), List.append_assoc]

theorem Store.affectedSpan_moveFirst {st : Store} {front back : List Story} {x : Story}
    (hnum : (st.rundown.map (·.number)).Nodup) (hcut : st.rundown = front ++ x :: back) :
    st.affectedSpan (.storyMove x.number none) = x.lines ++ ((front ++ back).flatMap (·.lines)).head?.toList := by
  rw [Store.affectedSpan, st.linesOf_at hnum hcut, hcut, withoutStory_at (numbers_around (hcut ▸ hnum)),
    insertionNeighbours_none]

/-! ### The guard window (R130) -/

theorem State.meetsGuard_iff (s : State) (e : EditParams) : s.meetsGuard e = true ↔
    ∃ anchor a lid o, s.sce.anchor = some anchor ∧ s.scs.ordinal? anchor = some a ∧ lid ∈ s.scs.affectedSpan e ∧
      s.scs.ordinal? lid = some o ∧ a ≤ o + s.ede.guardAbove ∧ o ≤ a + s.ede.guardBelow := by
  have hany (a : Nat) : ((s.scs.affectedSpan e).any fun lid =>
      match s.scs.ordinal? lid with
      | some o => inGuard s.ede a o
      | none => false) = true ↔ ∃ lid o, lid ∈ s.scs.affectedSpan e ∧ s.scs.ordinal? lid = some o ∧
        a ≤ o + s.ede.guardAbove ∧ o ≤ a + s.ede.guardBelow := by
    rw [List.any_eq_true]
    refine exists_congr fun lid => ?_
    cases s.scs.ordinal? lid <;> simp [inGuard]
  have hanchor (a : Nat) : s.anchorOrdinal = some a ↔ ∃ anchor, s.sce.anchor = some anchor ∧ s.scs.ordinal? anchor = some a :=
    Option.bind_eq_some_iff
  unfold State.meetsGuard
  cases ha : s.anchorOrdinal with
  | none =>
    simp only [Bool.false_eq_true, false_iff, not_exists]
    rintro anchor a lid o ⟨h1, h2, -⟩
    exact absurd ((hanchor a).2 ⟨anchor, h1, h2⟩) (by simp [ha])
  | some a =>
    refine Iff.trans ?_ ((hany a).trans ?_)
    · exact Iff.rfl
    · obtain ⟨anchor, h1, h2⟩ := (hanchor a).1 ha
      constructor
      · rintro ⟨lid, o, hrest⟩
        exact ⟨anchor, a, lid, o, h1, h2, hrest⟩
      · rintro ⟨anchor', a', lid, o, h1', h2', hrest⟩
        cases h1.symm.trans h1'
        cases h2.symm.trans h2'
        exact ⟨lid, o, hrest⟩

/-! ### What a pass goes past (R131) -/

theorem waitsBehind_eq_true {earlier : List Entry} {e : Entry} :
    waitsBehind earlier e = true ↔ ∃ q ∈ earlier, editStory q.edit = editStory e.edit := by
  simp [waitsBehind]

theorem waitsBehind_eq_false {earlier : List Entry} {e : Entry} :
    waitsBehind earlier e = false ↔ ∀ q ∈ earlier, editStory q.edit ≠ editStory e.edit := by
  simp [waitsBehind]

/-- A pass goes past the entries in COPYING. -/
theorem State.passFrom_copying (s : State) (earlier rest : List Entry) {pre : List Entry}
    (h : ∀ q ∈ pre, q.state = .copying) : s.passFrom earlier (pre ++ rest) = s.passFrom (earlier ++ pre) rest := by
  induction pre generalizing earlier with
  | nil => simp
  | cons q pre ih =>
    rw [List.cons_append, State.passFrom, if_pos (h q (by simp)), ih _ fun x hx => h x (by simp [hx])]
    simp

/-- A pass makes WAITING every entry behind one that touches its story, and ends there if no other is left. -/
theorem State.passFrom_waiting (s : State) (earlier rest : List Entry)
    (h : ∀ x ∈ rest, x.state ≠ .copying ∧ waitsBehind earlier x = true) :
    s.passFrom earlier rest = s.setQueue (earlier ++ rest.map (fun x => { x with state := .waiting })) := by
  induction rest generalizing earlier with
  | nil => simp [State.passFrom]
  | cons e rest ih =>
    obtain ⟨hstate, hwait⟩ := h e (by simp)
    rw [State.passFrom, if_neg hstate, if_pos hwait, ih]
    · simp
    · intro x hx
      obtain ⟨hs, hw⟩ := h x (by simp [hx])
      obtain ⟨q, hq, hstory⟩ := waitsBehind_eq_true.1 hw
      exact ⟨hs, waitsBehind_eq_true.2 ⟨q, by simp [hq], hstory⟩⟩

section
variable {s : State} {pre rest : List Entry} {e : Entry} (hqueue : s.ede.queue = pre ++ e :: rest)
  (hpre : ∀ q ∈ pre, q.state = .copying ∧ editStory q.edit ≠ editStory e.edit) (hstate : e.state ≠ .copying)
include hqueue hpre hstate

omit hstate in
/-- A pass evaluates the first entry that is neither in COPYING nor held back. -/
theorem State.pass_first : s.pass = s.passFrom pre (e :: rest) ∧ waitsBehind pre e = false := by
  refine ⟨?_, waitsBehind_eq_false.2 fun q hq => (hpre q hq).2⟩
  rw [State.pass, hqueue, s.passFrom_copying [] _ fun q hq => (hpre q hq).1, List.nil_append]

theorem State.pass_applies (hcheck : s.entryChecks e.link e.edit e.lids.length = none)
    (hguard : s.msc.mode ≠ .onAir ∨ s.meetsGuard e.edit = false) :
    s.pass = (s.setQueue (pre ++ rest)).applyEntry e := by
  have hfree : ¬(s.msc.mode = .onAir ∧ s.meetsGuard e.edit = true) := by
    rintro ⟨hmode, hmeets⟩
    rcases hguard with h | h
    · exact h hmode
    · simp [hmeets] at h
  obtain ⟨hfirst, hwait⟩ := State.pass_first hqueue hpre
  simp only [hfirst, State.passFrom, if_neg hstate, hwait, hcheck, if_neg hfree, Bool.false_eq_true, if_false]

theorem State.pass_drops {cause : Cause} {detail : Nat}
    (hcheck : s.entryChecks e.link e.edit e.lids.length = some (cause, detail)) :
    s.pass = ((s.setQueue (pre ++ rest)).recordRefusal e.link .ecmt cause detail).dropEntry e cause := by
  obtain ⟨hfirst, hwait⟩ := State.pass_first hqueue hpre
  simp only [hfirst, State.passFrom, if_neg hstate, hwait, hcheck, Bool.false_eq_true, if_false]

theorem State.pass_defers (hcheck : s.entryChecks e.link e.edit e.lids.length = none) (hmode : s.msc.mode = .onAir)
    (hguard : s.meetsGuard e.edit = true)
    (hrest : ∀ x ∈ rest, x.state ≠ .copying ∧ editStory x.edit = editStory e.edit) :
    s.pass = (s.noteDeferred e).setQueue (pre ++ { e with state := .deferred, deferredSent := true } ::
      rest.map (fun x => { x with state := .waiting })) := by
  obtain ⟨hfirst, hwait⟩ := State.pass_first hqueue hpre
  simp only [hfirst, State.passFrom, if_neg hstate, hwait, hcheck, if_pos (And.intro hmode hguard), Bool.false_eq_true,
    if_false]
  rw [State.passFrom_waiting]
  · simp
  · intro x hx
    obtain ⟨hs, hstory⟩ := hrest x hx
    exact ⟨hs, waitsBehind_eq_true.2 ⟨{ e with state := .deferred, deferredSent := true }, by simp, hstory.symm⟩⟩

end

/-! ### Staging triggers in an event (R148) -/

/-- A snapshot takes nothing of the state but the engine, the script, the holder and the window's geometry (R149). -/
theorem State.snapshot_congr {s t : State} (hsce : t.sce = s.sce) (hscs : t.scs = s.scs) (hholder : t.aua.holder = s.aua.holder)
    (hrows : t.wst.rows = s.wst.rows) (heye : t.wst.eyeRow = s.wst.eyeRow) : t.snapshot = s.snapshot := by
  simp only [State.snapshot, State.anchorOrdinal, hsce, hscs, hholder, hrows, heye]

theorem State.trigger_snapshot (s : State) : s.trigger.snapshot = s.snapshot :=
  State.snapshot_congr (by simp) (by simp) (by simp) (by simp) (by simp)

theorem Restaged.of_same {s t s' t' : State} (h : Restaged s t) (hs : s'.wst = s.wst) (ht : t'.wst = t.wst)
    (hsnap : t'.snapshot = t.snapshot) : Restaged s' t' := by
  unfold Restaged at *
  rwa [hs, ht, hsnap]

theorem Published.of_same {s t s' t' : State} (h : Published s t) (hs : s'.wst = s.wst) (ht : t'.wst = t.wst)
    (hsnap : t'.snapshot = t.snapshot) : Published s' t' := by
  unfold Published at *
  rwa [hs, ht, hsnap]

/-- One staging trigger or more was met, the first with a given snapshot (R148). -/
def Retriggered (f : Frame) (s t : State) : Prop :=
  (s.wst.buffer = none → t.wst = { s.wst with buffer := some f, restage := t.wst.restage }) ∧
    (s.wst.buffer ≠ none → t.wst = { s.wst with restage := true })

theorem restaged_iff (s t : State) : Restaged s t ↔ Retriggered t.snapshot s t := Iff.rfl

theorem Retriggered.buffer {f : Frame} {s t : State} (h : Retriggered f s t) : t.wst.buffer ≠ none := by
  by_cases hb : s.wst.buffer = none
  · rw [h.1 hb]
    exact Option.some_ne_none f
  · rw [h.2 hb]
    exact hb

/-- What comes after the first trigger can only set restage-pending (R148). -/
theorem Retriggered.again {f : Frame} {s t u : State} (h : Retriggered f s t)
    (hu : u.wst = t.wst ∨ u.wst = { t.wst with restage := true }) : Retriggered f s u := by
  obtain ⟨hidle, hstaging⟩ := h
  refine ⟨fun hb => ?_, fun hb => ?_⟩
  · rcases hu with hu | hu <;> rw [hu, hidle hb]
  · rcases hu with hu | hu <;> rw [hu, hstaging hb]

/-- A trigger after one in the same event sets restage-pending (R148). -/
theorem Retriggered.trigger {f : Frame} {s t : State} (h : Retriggered f s t) : Retriggered f s t.trigger := by
  refine h.again (.inr ?_)
  obtain ⟨g, hg⟩ := Option.ne_none_iff_exists'.1 h.buffer
  simp only [State.trigger, hg]

theorem Retriggered.publishSince {f : Frame} {s t : State} (h : Retriggered f s t) (e : ScrollEngine) :
    Retriggered f s (t.publishSince e) := by
  unfold State.publishSince
  split
  · exact h
  · exact h.trigger

theorem Restaged.trigger {s t : State} (h : Restaged s t) : Restaged s t.trigger := by
  rw [restaged_iff, State.trigger_snapshot]
  exact Retriggered.trigger h

theorem Restaged.publishSince {s t : State} (h : Restaged s t) (e : ScrollEngine) : Restaged s (t.publishSince e) := by
  unfold State.publishSince
  split
  · exact h
  · exact h.trigger

/-! ### Entries that leave the queue (R10, R133) -/

theorem State.raiseCommit_rli (s : State) (k : NoticeKind) (l : Link) (tag : Byte) (c : Option Cause) :
    (s.raiseCommit k l tag c).rli = { s.rli with notices := s.ownCommit k l tag c } := by
  cases l <;> rfl

/-- A state whose links took one commit notice, with the sends this starts. -/
theorem commitReported_settle {k : NoticeKind} {e : Entry} {cause : Option Cause} {s u : State}
    (hcli : u.cli = { s.cli with notices := raiseIn s.cli.notices k (.commit e.link e.tag cause) })
    (hrli : u.rli = { s.rli with notices := s.ownCommit k e.link e.tag cause }) :
    CommitReported k e cause s u.settle := by
  simp only [CommitReported, State.settle_cli, State.settle_rli, hcli, hrli, LinkIface.tabled, and_self]

theorem State.dropEntry_ede (s : State) (e : Entry) (c : Cause) :
    (s.dropEntry e c).ede = { s.ede with passesDue := s.ede.passesDue + 1 } := by
  simp [State.dropEntry, State.passFollows]

theorem State.dropEntry_cli (s : State) (e : Entry) (c : Cause) : (s.dropEntry e c).cli =
    { s.cli with notices := raiseIn s.cli.notices .commitRefused (.commit e.link e.tag (some c)) } := by
  simp [State.dropEntry]

theorem State.dropEntry_rli (s : State) (e : Entry) (c : Cause) : (s.dropEntry e c).rli =
    { s.rli with notices := s.ownCommit .commitRefused e.link e.tag (some c) } := by
  simp only [State.dropEntry, State.passFollows_rli, State.raiseCommit_rli]
  rfl

theorem State.dropEntry_sameBut (s : State) (e : Entry) (c : Cause) :
    SameBut [.scs, .ede, .cli, .rli] s (s.dropEntry e c) := by
  simp [sameBut_iff]

/-- The state whose report the engine takes at an apply (R10). -/
def State.appliedAs (s : State) (e : Entry) : State :=
  { s with scs := s.scs.applied e.edit e.lids }.raiseCommit .commitDone e.link e.tag none

theorem State.applyEntry_eq (s : State) (e : Entry) :
    s.applyEntry e = ((s.appliedAs e).takeApply (s.scs.report e.edit e.lids)).passFollows := rfl

@[simp] theorem State.appliedAs_frame (s : State) (e : Entry) :
    (s.appliedAs e).msc = s.msc ∧ (s.appliedAs e).scs = s.scs.applied e.edit e.lids ∧ (s.appliedAs e).ede = s.ede ∧
    (s.appliedAs e).ports = s.ports ∧ (s.appliedAs e).dsh = s.dsh ∧ (s.appliedAs e).aua = s.aua ∧
    (s.appliedAs e).sce = s.sce ∧ (s.appliedAs e).tbp = s.tbp ∧ (s.appliedAs e).wst = s.wst ∧
    (s.appliedAs e).loa = s.loa ∧ (s.appliedAs e).lob = s.lob ∧ (s.appliedAs e).due = s.due ∧
    (s.appliedAs e).mem = s.mem ∧ (s.appliedAs e).pending = s.pending := by
  simp [State.appliedAs]

theorem State.takeApply_restaged (s : State) (r : ContentReport) : Restaged s (s.takeApply r) :=
  (State.trigger_published (by simp)).restaged.publishSince _

theorem State.applyEntry_restaged (s : State) (e : Entry) : Restaged s (s.applyEntry e) :=
  ((s.appliedAs e).takeApply_restaged _).of_same (by simp) rfl rfl

theorem State.applyEntry_sameBut (s : State) (e : Entry) :
    SameBut [.scs, .ede, .sce, .wst, .cli, .rli] s (s.applyEntry e) := by
  simp [sameBut_iff]

theorem State.applyEntry_rli (s : State) (e : Entry) : (s.applyEntry e).rli =
    { s.rli with notices := s.ownCommit .commitDone e.link e.tag none } := by
  rw [State.applyEntry_eq]
  simp only [State.passFollows_rli, State.takeApply_frame, State.appliedAs, State.raiseCommit_rli]
  rfl

theorem State.applyEntry_passesDue (s : State) (e : Entry) : 0 < (s.applyEntry e).ede.passesDue := Nat.zero_lt_succ _

/-- A kind raised stays raised while the story at the eye is told. -/
theorem RaisedIn.storyTold {t : List NoticeEntry} {k : NoticeKind} {d : NoticeDetail} (h : RaisedIn t k d)
    (hk : k ≠ .storyAtEye) (old new : Option Nat) : RaisedIn (storyTold t old new) k d := by
  unfold Machine.storyTold
  split
  · exact h
  · split
    · exact h
    · exact h.raiseIn_other (Ne.symm hk)

theorem State.moveAnchor_keepsRaised {s : State} {k : NoticeKind} {d : NoticeDetail} (h : RaisedIn s.cli.notices k d)
    (hk : k ≠ .storyAtEye) (a : Option Nat) (f : Nat) : RaisedIn (s.moveAnchor a f).cli.notices k d := by
  rw [State.moveAnchor_told]
  exact h.storyTold hk _ _

theorem State.takeApply_keepsRaised {s : State} {k : NoticeKind} {d : NoticeDetail} (h : RaisedIn s.cli.notices k d)
    (hk : k ≠ .storyAtEye) (r : ContentReport) : RaisedIn (s.takeApply r).cli.notices k d := by
  have hrelocate : RaisedIn (s.relocate r).endTest.cli.notices k d := by
    rw [show (s.relocate r).endTest.cli = (s.relocate r).cli by simp]
    unfold State.relocate
    split
    · split
      · dsimp only
        split
        · exact State.moveAnchor_keepsRaised h hk _ _
        · exact State.moveAnchor_keepsRaised h hk _ _
      · exact h
    · exact h
  rw [State.takeApply, show ∀ u : State, (u.trigger.publishSince s.sce).cli = u.cli by simp]
  unfold State.firstAnchor
  split
  · exact State.moveAnchor_keepsRaised hrelocate hk _ _
  · exact hrelocate

theorem State.applyEntry_reports (s : State) (e : Entry) :
    RaisedIn (s.applyEntry e).cli.notices .commitDone (.commit e.link e.tag none) := by
  refine State.takeApply_keepsRaised (s := s.appliedAs e) ?_ (by decide) _
  simpa [State.appliedAs] using raisedIn_raiseIn _ _ _

/-! ### The pass as an event (R131, R132) -/

/-- An event's sends change nothing but the links. -/
theorem SameBut.settled {bs : List Block} {s u : State} (h : SameBut bs s u) (hc : .cli ∈ bs) (hr : .rli ∈ bs) :
    SameBut bs s u.settle :=
  (h.trans (u.settle_sameBut.mono (by simp [hc, hr])))

theorem State.passTaken_sameBut (s : State) : SameBut [.ede] s s.passTaken := by
  simp [sameBut_iff, State.passTaken]

theorem State.setQueue_sameBut (s : State) (q : List Entry) : SameBut [.ede] s (s.setQueue q) := by
  simp [sameBut_iff]

section
variable {s : State} {pre rest : List Entry} {e : Entry}

/-- What an applied entry leaves, before the event's sends start (R10, R131, R133). -/
theorem applied_left (u : State) (q : List Entry) (hu : SameBut [.ede] s u) :
    ((u.setQueue q).applyEntry e).scs = s.scs.applied e.edit e.lids ∧
    ((u.setQueue q).applyEntry e).ede.queue = q ∧ 0 < ((u.setQueue q).applyEntry e).ede.passesDue ∧
    ((u.setQueue q).applyEntry e).ede.refusal = u.ede.refusal ∧
    RaisedIn ((u.setQueue q).applyEntry e).cli.notices .commitDone (.commit e.link e.tag none) ∧
    ((u.setQueue q).applyEntry e).rli = { s.rli with notices := s.ownCommit .commitDone e.link e.tag none } ∧
    Restaged s ((u.setQueue q).applyEntry e) ∧
    SameBut [.scs, .ede, .sce, .wst, .cli, .rli] s ((u.setQueue q).applyEntry e) := by
  have hframe : SameBut [.ede] s (u.setQueue q) := (hu.trans (u.setQueue_sameBut q))
  have hrli : (u.setQueue q).rli = s.rli := hframe .rli (by decide)
  have hscs : (u.setQueue q).scs = s.scs := hframe .scs (by decide)
  have hkept := (u.setQueue q).applyEntry_passes e
  refine ⟨?_, ?_, State.applyEntry_passesDue _ e, ?_, State.applyEntry_reports _ e, ?_, ?_, ?_⟩
  · rw [State.applyEntry_scs, hscs]
  · rw [hkept]
    rfl
  · rw [hkept]
    rfl
  · rw [State.applyEntry_rli, hrli, State.ownCommit, State.ownCommit, hrli]
  · exact ((u.setQueue q).applyEntry_restaged e).of_same (hframe .wst (by decide)).symm rfl rfl
  · exact (hframe.mono (by simp)).trans (State.applyEntry_sameBut _ e)

/-- What a dropped entry leaves, once the event's sends have started (R4, R133). -/
theorem dropped_settled (u : State) (c : Cause) (hu : SameBut [.scs, .ede] s u) :
    ((u.dropEntry e c).settle).scs = u.scs.release e.lids ∧
    ((u.dropEntry e c).settle).ede = { u.ede with passesDue := u.ede.passesDue + 1 } ∧
    CommitReported .commitRefused e (some c) s (u.dropEntry e c).settle ∧
    SameBut [.scs, .ede, .cli, .rli] s (u.dropEntry e c).settle := by
  have hcli : u.cli = s.cli := hu .cli (by decide)
  have hrli : u.rli = s.rli := hu .rli (by decide)
  refine ⟨?_, ?_, commitReported_settle ?_ ?_, ?_⟩
  · rw [State.settle_scs, State.dropEntry_scs]
  · rw [State.settle_ede, State.dropEntry_ede]
  · rw [State.dropEntry_cli, hcli]
  · rw [State.dropEntry_rli, State.ownCommit, State.ownCommit, hrli]
  · exact (hu.mono (by simp)).trans ((State.dropEntry_sameBut _ e c).settled (by simp) (by simp))

end

/-- Settles O38: the pass is taken at the first entry that no earlier one holds back. -/
theorem passTakesOneEntry : Obligations.PassTakesOneEntry := by
  refine ⟨?_, ?_, ?_, fun e s => s.meetsGuard_iff e, ?_, ?_⟩
  · intro pre rest e s hqueue hpre hstate
    have htaken := s.passTaken_sameBut
    have hnext : exec .queuePass s = .next s.passTaken.pass.settle := rfl
    refine ⟨fun hcheck hguard => ?_, fun cause detail hcheck => ?_, fun hset hcheck hmode hguard hrest => ?_⟩
    · rw [State.pass_applies (s := s.passTaken) hqueue hpre hstate hcheck hguard] at hnext
      obtain ⟨hscs, hleft, hdue, hrefusal, hraised, hrli, hrestaged, hsame⟩ :=
        applied_left (e := e) s.passTaken (pre ++ rest) htaken
      exact ⟨_, hnext, hscs, hleft, hdue, hrefusal, LinkIface.reports_pump hraised, congrArg LinkIface.pump hrli,
        hrestaged.of_same rfl rfl rfl, hsame.settled (by simp) (by simp)⟩
    · rw [State.pass_drops (s := s.passTaken) hqueue hpre hstate hcheck] at hnext
      have hframe : SameBut [.scs, .ede] s
          ((s.passTaken.setQueue (pre ++ rest)).recordRefusal e.link .ecmt cause detail) :=
        (htaken.mono (by simp)).trans (by simp [sameBut_iff])
      exact ⟨_, hnext, dropped_settled _ cause hframe⟩
    · rw [State.pass_defers (s := s.passTaken) hqueue hpre hstate hcheck hmode hguard hrest] at hnext
      obtain ⟨hcli, hrli⟩ := (State.settled_iff s).1 hset
      refine ⟨_, hnext, by simp [State.passTaken], fun hsent => ?_, fun hsent => ?_, ?_⟩
      · refine commitReported_settle ?_ ?_
        · simp [State.noteDeferred, hsent, State.passTaken]
        · simp only [State.noteDeferred, hsent, Bool.false_eq_true, if_false, State.setQueue_rli, State.raiseCommit_rli]
          rfl
      · have hkept : s.passTaken.noteDeferred e = s.passTaken := by simp [State.noteDeferred, hsent]
        rw [hkept]
        exact ⟨hcli, hrli⟩
      · refine SameBut.settled ?_ (by simp) (by simp)
        exact (htaken.mono (by simp)).trans (by simp [sameBut_iff])
  · intro pre rest s hset hqueue hpre hrest
    have hpass : s.passTaken.pass = s.passTaken.setQueue (pre ++ rest.map (fun x => { x with state := .waiting })) := by
      rw [State.pass, show s.passTaken.ede.queue = pre ++ rest from hqueue, State.passFrom_copying _ _ _ hpre]
      refine State.passFrom_waiting _ _ _ fun x hx => ?_
      obtain ⟨hstate, q, hq, hstory⟩ := hrest x hx
      exact ⟨hstate, waitsBehind_eq_true.2 ⟨q, by simpa using hq, hstory⟩⟩
    have hnext : exec .queuePass s = .next (s.passTaken.setQueue (pre ++ rest.map (fun x => { x with state := .waiting }))) := by
      rw [← finish_of_links (t := s.passTaken.setQueue _) hset rfl rfl, ← hpass]
      rfl
    exact ⟨_, hnext, rfl, s.passTaken_sameBut.trans (s.passTaken.setQueue_sameBut _)⟩
  · intro s t hmode hexec
    have hnext : t = s.passTaken.pass.settle := (Host.Outcome.next.inj hexec).symm
    have hends := s.passTaken.pass_ends
    rw [hnext]
    generalize s.passTaken.pass = v at hends
    cases hends with
    | kept u q hu =>
      exact .inl ⟨congrArg Store.rundown (hu .scs (by decide)), hu .sce (by decide)⟩
    | removed u before before' after e cause detail hu =>
      refine .inl ⟨?_, ?_⟩
      · have hscs : u.scs = s.scs := hu .scs (by decide)
        rw [State.settle_scs, State.dropEntry_scs]
        show u.scs.rundown = _
        rw [hscs]
      · rw [State.settle_sce, (State.dropEntry_sameBut _ _ _) .sce (by decide)]
        exact hu .sce (by decide)
    | applied u before before' after e hu hrest hq he hwait hcheck hguard =>
      have hscs : u.scs = s.scs := hu .scs (by decide)
      have hede : u.ede = s.passTaken.ede := hu .ede (by decide)
      have hsce : u.sce = s.sce := hu .sce (by decide)
      have hmsc : u.msc = s.msc := hu .msc (by decide)
      refine .inr ⟨e, ?_, he, ?_, ?_, ?_⟩
      · rw [show s.ede.queue = before ++ e :: after from hrest]
        simp
      · have hmeets : u.meetsGuard e.edit = s.meetsGuard e.edit := by
          simp only [State.meetsGuard, State.anchorOrdinal, hscs, hede, hsce]
          rfl
        rw [hmeets, hmsc] at hguard
        simpa [hmode] using hguard
      · rw [← hcheck, State.entryChecks, State.entryChecks, hscs, hede]
        rfl
      · rw [State.settle_scs, State.applyEntry_scs]
        exact congrArg (fun st => Store.applied st e.edit e.lids) hscs
  · intro st before rest a n slug target hnum horder hcut
    refine ⟨fun l1 span l2 f g hlines hf hg => Store.affectedSpan_replace hnum hcut horder hlines hf hg,
      fun l1 l2 g hg => Store.affectedSpan_insert horder hg n, ?_, insertionNeighbours_none _,
      insertionNeighbours_at hnum hcut, Store.linesOf_at hnum hcut, Store.affectedSpan_moveFirst hnum hcut⟩
    rw [Store.affectedSpan, Store.insertSpan, Store.linesOf_at hnum hcut]
  · intro st before between rest a x hnum
    refine ⟨fun hcut => ?_, fun hcut => ?_⟩
    · exact Store.affectedSpan_move hnum hcut (by simp)
    · exact Store.affectedSpan_move (front := before ++ a :: between) (back := rest) (before := before)
        (rest := between ++ rest) hnum (by simp [hcut]) (by simp)

/-! ### What an apply does to the engine (R22, R43 to R45) -/

section
variable {s : State} {rest : List Entry} {e : Entry} {a : Nat} (hsound : StoreSound s.scs (e :: rest))
  (hplaced : Anchored s.scs s.sce) (hcheck : s.entryChecks e.link e.edit e.lids.length = none)

/-- The state the pass applies the first entry to, the rest of the queue left in it. -/
def State.applying (s : State) (rest : List Entry) (e : Entry) : State := (s.passTaken.setQueue rest).appliedAs e

/-- The engine once the first entry of the queue is applied by a pass. -/
def State.engineApplied (s : State) (rest : List Entry) (e : Entry) : State :=
  (s.applying rest e).takeApply (s.scs.report e.edit e.lids)

/-- The notices of an apply before the engine tells of its story. -/
def State.doneTold (s : State) (e : Entry) : List NoticeEntry :=
  raiseIn s.cli.notices .commitDone (.commit e.link e.tag none)

theorem State.applying_blocks : (s.applying rest e).sce = s.sce ∧
    (s.applying rest e).scs = s.scs.applied e.edit e.lids ∧
    (s.applying rest e).ede = { s.ede with queue := rest, passesDue := s.ede.passesDue - 1 } ∧
    (s.applying rest e).cli = { s.cli with notices := s.doneTold e } := by
  refine ⟨?_, ?_, ?_, ?_⟩ <;>
    simp [State.applying, State.passTaken, State.setQueue, State.appliedAs, State.doneTold]

theorem State.applied_settled_eq : ((s.passTaken.setQueue rest).applyEntry e).settle =
    (s.engineApplied rest e).passFollows.settle := rfl

/-- An anchor not removed is kept, at fraction 0 where it has become the last line (R44). -/
theorem State.engineApplied_kept (ha : s.sce.anchor = some a) (hmem : a ∈ s.scs.order)
    (hkept : a ∉ s.scs.removedBy e.edit) :
    (s.engineApplied rest e).sce = { s.sce with
      fraction := if (s.scs.applied e.edit e.lids).order.getLast? = some a then 0 else s.sce.fraction } ∧
    (s.engineApplied rest e).ede.passesDue = s.ede.passesDue - 1 ∧
    (s.engineApplied rest e).cli = { s.cli with notices := s.doneTold e } := by
  obtain ⟨hsce, hscs, hede, hcli⟩ := s.applying_blocks (rest := rest) (e := e)
  have htake := State.takeApply_kept (s := s.applying rest e) (r := s.scs.report e.edit e.lids)
    (fun b hb => by rw [hsce, ha] at hb; exact Option.some.inj hb ▸ hkept)
    (by simp [Store.report, List.ne_nil_of_mem hmem])
  rw [hsce, hscs, hede, hcli] at htake
  obtain ⟨h1, h2, h3⟩ := htake
  refine ⟨?_, by rw [State.engineApplied, h2], h3⟩
  rw [State.engineApplied, h1, ha]
  simp only [Option.isSome_some, true_and, eq_comm (a := some a)]

include hsound hcheck in
/-- An anchor among the removed lines goes to the new anchor, at fraction 0 (R43). -/
theorem State.engineApplied_moved (ha : s.sce.anchor = some a) (hmem : a ∈ s.scs.order)
    (hremoved : a ∈ s.scs.removedBy e.edit) {x : Option Nat} (hx : (s.scs.report e.edit e.lids).newAnchor = x) :
    (s.engineApplied rest e).sce = { s.sce with
      anchor := x, fraction := 0, velocity := if x = none then 0 else s.sce.velocity,
      currentStory := x.bind (s.scs.applied e.edit e.lids).storyOfLine? } ∧
    (s.engineApplied rest e).ede.passesDue = s.ede.passesDue - 1 + 1 ∧
    (s.engineApplied rest e).cli = { s.cli with
      notices := storyTold (s.doneTold e) s.sce.currentStory (x.bind (s.scs.applied e.edit e.lids).storyOfLine?) } := by
  simp only [State.entryChecks, Option.or_eq_none_iff] at hcheck
  obtain ⟨⟨hstruct, -⟩, hlimit⟩ := hcheck
  obtain ⟨hsce, hscs, hede, hcli⟩ := s.applying_blocks (rest := rest) (e := e)
  have htake := State.takeApply_moved (s := s.applying rest e) (r := s.scs.report e.edit e.lids) (hsce ▸ ha) hremoved
    (StoreSound.newAnchor_kept (before := []) hsound hstruct hlimit hremoved)
    (by simp [Store.report, List.ne_nil_of_mem hmem])
  rw [hsce, hscs, hede, hcli, hx] at htake
  obtain ⟨h1, h2, h3⟩ := htake
  exact ⟨h1, by rw [State.engineApplied, h2], h3⟩

include hplaced in
/-- An empty anchor takes the first line of a script that was empty (R45). -/
theorem State.engineApplied_first (ha : s.sce.anchor = none) :
    (s.engineApplied rest e).sce = { s.sce with
      anchor := (s.scs.applied e.edit e.lids).order.head?,
      currentStory := (s.scs.applied e.edit e.lids).order.head?.bind (s.scs.applied e.edit e.lids).storyOfLine? } ∧
    (s.engineApplied rest e).ede.passesDue =
      s.ede.passesDue - 1 + (if (s.scs.applied e.edit e.lids).order = [] then 0 else 1) ∧
    (s.engineApplied rest e).cli = { s.cli with
      notices := storyTold (s.doneTold e) s.sce.currentStory
        ((s.scs.applied e.edit e.lids).order.head?.bind (s.scs.applied e.edit e.lids).storyOfLine?) } := by
  obtain ⟨hsce, hscs, hede, hcli⟩ := s.applying_blocks (rest := rest) (e := e)
  have horder : s.scs.order = [] := hplaced.empty.1 ha
  have hstory : s.sce.currentStory = none := by rw [hplaced.story, ha]; rfl
  have hfraction : s.sce.fraction = 0 := hplaced.last (by rw [ha, horder]; rfl)
  by_cases hafter : (s.scs.applied e.edit e.lids).order = []
  · have htake := State.takeApply_kept (s := s.applying rest e) (r := s.scs.report e.edit e.lids)
      (fun b hb => by rw [hsce, ha] at hb; cases hb) (by simp [Store.report, hafter])
    rw [hsce, hscs, hede, hcli] at htake
    obtain ⟨h1, h2, h3⟩ := htake
    refine ⟨?_, by rw [State.engineApplied, h2]; simp [hafter], ?_⟩
    · rw [State.engineApplied, h1, hafter]
      simp only [ha, hfraction, List.head?_nil, Option.isSome_none, Bool.false_eq_true, false_and, if_false]
      rw [← ha, ← hfraction, show Option.bind (s.sce.anchor) _ = none by rw [ha]; rfl, ← hstory]
    · rw [State.engineApplied, h3, hafter]
      rfl
  · have htake := State.takeApply_first (s := s.applying rest e) (r := s.scs.report e.edit e.lids) (hsce ▸ ha)
      ((s.scs.report_first e.edit e.lids).2 ⟨horder, hafter⟩) (hscs ▸ hafter)
    rw [hsce, hscs, hede, hcli] at htake
    obtain ⟨h1, h2, h3⟩ := htake
    refine ⟨?_, by rw [State.engineApplied, h2]; simp [hafter], h3⟩
    rw [State.engineApplied, h1]
    simp [hfraction]

end

/-- Settles O39: the three cases of the anchor, not removed, removed, and empty. -/
theorem applyMovesEngine : Obligations.ApplyMovesEngine := by
  intro e rest removed after s hstore hanchor hqueue hstate hcheck hguard hremoved hafter
  subst hremoved hafter
  obtain ⟨hsound, -⟩ := (s.stored_iff).2 hstore
  rw [hqueue] at hsound
  have hplaced := (s.anchorOk_iff).1 hanchor
  have hnext : exec .queuePass s = .next ((s.passTaken.setQueue rest).applyEntry e).settle := by
    show finish s.passTaken.pass = _
    rw [State.pass_applies (s := s.passTaken) (pre := []) hqueue (by simp) hstate hcheck hguard]
    rfl
  obtain ⟨hscs, -, -, -, -, -, hrestaged, -⟩ := applied_left (e := e) s.passTaken rest s.passTaken_sameBut
  refine ⟨_, hnext, hscs, hrestaged.of_same rfl rfl rfl, ?_⟩
  rw [State.applied_settled_eq]
  have hsettled {told : List NoticeEntry} (h : (s.engineApplied rest e).cli = { s.cli with notices := told }) :
      (s.engineApplied rest e).passFollows.settle.cli = s.cli.tabled told := by
    rw [State.settle_cli, State.passFollows_cli, h, LinkIface.tabled]
  cases ha : s.sce.anchor with
  | none =>
    obtain ⟨hsce, hdue, hcli⟩ := s.engineApplied_first (rest := rest) (e := e) hplaced ha
    refine ⟨?_, by simp, by simp, fun _ => ⟨hsce, ?_⟩⟩
    · rw [hsettled hcli, State.settle_sce, State.passFollows_sce, hsce]
      rfl
    · rw [State.settle_ede, State.passFollows]
      dsimp only
      rw [hdue]
      split <;> rfl
  | some a =>
    have hmem := hplaced.mem a ha
    by_cases hr : a ∈ s.scs.removedBy e.edit
    · obtain ⟨hsce, hdue, hcli⟩ := s.engineApplied_moved (rest := rest) hsound hcheck ha hmem hr rfl
      refine ⟨?_, ?_, ?_, by simp⟩
      · rw [hsettled hcli, State.settle_sce, State.passFollows_sce, hsce]
        rfl
      · rintro b hb hnot
        cases hb
        exact absurd hr hnot
      · rintro b x l1 l2 - - hcut hx
        have hnew := hsound.newAnchor_cut (lids := e.lids) hcut (List.ne_nil_of_mem hr)
        rw [hnew, ← hx] at hsce
        exact ⟨hsce, by rw [State.settle_ede, State.passFollows]; dsimp only; rw [hdue]⟩
    · obtain ⟨hsce, hdue, hcli⟩ := s.engineApplied_kept (rest := rest) (e := e) ha hmem hr
      refine ⟨?_, ?_, ?_, by simp⟩
      · rw [hsettled hcli, State.settle_sce, State.passFollows_sce, hsce]
        cases hc : s.sce.currentStory <;> simp [storyTold, State.doneTold]
      · rintro b hb -
        cases hb
        exact ⟨hsce, by rw [State.settle_ede, State.passFollows]; dsimp only; rw [hdue]⟩
      · rintro b x l1 l2 hb hin
        cases hb
        exact absurd hin hr

/-! ### Cancel and force (R134, R135) -/

theorem linkOfCode?_code (l : Link) : linkOfCode? l.code = some l := by cases l <;> rfl

theorem doQcan_found {link l : Link} {tag : Byte} {e : Entry} {s : State} (hl : ¬(link = .rundown ∧ l = .console))
    (hfind : findEntry? s.ede.queue l tag = some e) : doQcan link l.code tag.toNat s = s.cancelEntry e := by
  simp only [doQcan, linkOfCode?_code, if_neg hl, BitVec.ofNat_toNat, BitVec.setWidth_eq, hfind]

theorem doQcan_absent {link l : Link} {tag : Byte} {s : State} (hl : ¬(link = .rundown ∧ l = .console))
    (hfind : findEntry? s.ede.queue l tag = none) :
    doQcan link l.code tag.toNat s = refuse s link .qcan .unknownEntry tag.toNat := by
  simp only [doQcan, linkOfCode?_code, if_neg hl, BitVec.ofNat_toNat, BitVec.setWidth_eq, hfind]

theorem doQfrc_refused {link l : Link} {tag : Byte} {cause : Cause} {s : State}
    (h : (findEntry? s.ede.queue l tag = none ∧ cause = .unknownEntry) ∨
      (∃ e, findEntry? s.ede.queue l tag = some e ∧ e.state ≠ .deferred ∧ cause = .order)) :
    doQfrc link l.code tag.toNat s = refuse s link .qfrc cause tag.toNat := by
  simp only [doQfrc, linkOfCode?_code, BitVec.ofNat_toNat, BitVec.setWidth_eq]
  rcases h with ⟨hfind, rfl⟩ | ⟨e, hfind, hstate, rfl⟩
  · simp only [hfind]
  · simp only [hfind, if_neg hstate]

theorem doQfrc_deferred {link : Link} {e : Entry} {s : State} (hfind : findEntry? s.ede.queue e.link e.tag = some e)
    (hstate : e.state = .deferred) : doQfrc link e.link.code e.tag.toNat s = s.forceEntry link e := by
  simp only [doQfrc, linkOfCode?_code, BitVec.ofNat_toNat, BitVec.setWidth_eq, hfind, if_pos hstate]

theorem entryNamed_wellFormed (l : Link) (tag : Byte) :
    (Request.qcan l.code tag.toNat).wellFormed = true ∧ (Request.qfrc l.code tag.toNat).wellFormed = true := by
  have htag : tag.toNat < 256 := tag.isLt
  cases l <;> simp [Request.wellFormed, Link.code, htag]

/-- An answer on a link whose owner raised notices on it. -/
theorem linkAfter_of_raised {l i : LinkIface} {notices : List NoticeEntry} (h : i = { l with notices := notices })
    (r : Response) : LinkIface.pump { i with responseQueue := i.responseQueue ++ [r] } = linkAfter l notices r := by
  rw [h]
  rfl


theorem State.cancelEntry_removes {s : State} {e : Entry} (h : e.state ≠ .copying) : s.cancelEntry e =
    ((s.setQueue (withoutEntry s.ede.queue e.link e.tag)).dropEntry e .cancelled, .ok (flag false)) := by
  rw [State.cancelEntry, if_neg h]

theorem State.dropEntry_link (s : State) (e : Entry) (c : Cause) :
    ((s.dropEntry e c).link .console = { s.cli with
      notices := raiseIn s.cli.notices .commitRefused (.commit e.link e.tag (some c)) }) ∧
    (s.dropEntry e c).link .rundown = { s.rli with
      notices := s.ownCommit .commitRefused e.link e.tag (some c) } :=
  ⟨s.dropEntry_cli e c, s.dropEntry_rli e c⟩

/-- A cancel that removes its entry (R134). -/
theorem exec_qcan_removes {link : Link} {tag : Byte} {e : Entry} {s : State} (hr : s.linkReady link = true)
    (hown : link = .rundown → e.link = .rundown) (hfind : findEntry? s.ede.queue e.link e.tag = some e)
    (hstate : e.state ≠ .copying) : ∃ t, exec (.qcan link tag e.link.code e.tag.toNat) s = .next t ∧
      t.scs = s.scs.release e.lids ∧
      t.ede = { s.ede with queue := withoutEntry s.ede.queue e.link e.tag, passesDue := s.ede.passesDue + 1 } ∧
      t.link link = linkAfter (s.link link)
        (raiseIn (s.link link).notices .commitRefused (.commit e.link e.tag (some .cancelled)))
        ⟨tag, Mnem.qcan.bytes, .ok (u8 0)⟩ ∧
      (link = .console → t.rli = s.rli.tabled (s.ownCommit .commitRefused e.link e.tag (some .cancelled))) ∧
      (link = .rundown →
        t.cli = s.cli.tabled (raiseIn s.cli.notices .commitRefused (.commit e.link e.tag (some .cancelled)))) ∧
      SameBut [.scs, .ede, .cli, .rli] s t := by
  have hl : ¬(link = .rundown ∧ e.link = .console) := by
    rintro ⟨h, hc⟩
    rw [hown h] at hc
    cases hc
  have hframe := s.setQueue_sameBut (withoutEntry s.ede.queue e.link e.tag)
  obtain ⟨t, ht, hlink, -, hother, hut⟩ := exec_lastAnswers (c := .qcan link tag e.link.code e.tag.toNat) hr rfl
    (instantsPast_of_ne (by simp)) (by simp [rundownPermitted, Request.mnem]) (entryNamed_wellFormed _ _).1
    (congrArg answered ((doQcan_found hl hfind).trans (State.cancelEntry_removes hstate)))
  obtain ⟨hconsole, hrundown⟩ := (s.setQueue (withoutEntry s.ede.queue e.link e.tag)).dropEntry_link e .cancelled
  have hscs : t.scs = s.scs.release e.lids := by rw [hut .scs (by decide), State.dropEntry_scs, State.setQueue_scs]
  have hede : t.ede = { s.ede with
      queue := withoutEntry s.ede.queue e.link e.tag, passesDue := s.ede.passesDue + 1 } := by
    rw [hut .ede (by decide), State.dropEntry_ede]
    rfl
  have hsame : SameBut [.scs, .ede, .cli, .rli] s t :=
    ((hframe.mono (by simp)).trans (State.dropEntry_sameBut _ e .cancelled)).trans (hut.mono (by simp))
  refine ⟨t, ht, hscs, hede, ?_, ?_, ?_, hsame⟩
  · rw [hlink]
    cases link with
    | console => exact linkAfter_of_raised (l := s.cli) hconsole _
    | rundown =>
      have hnotices : (s.setQueue (withoutEntry s.ede.queue e.link e.tag)).ownCommit .commitRefused e.link e.tag
          (some .cancelled) = raiseIn s.rli.notices .commitRefused (.commit e.link e.tag (some .cancelled)) :=
        if_pos (hown rfl)
      rw [hnotices] at hrundown
      exact linkAfter_of_raised (l := s.rli) hrundown _
  · rintro rfl
    have h := hother .rundown (by simp)
    rw [hrundown] at h
    exact h
  · rintro rfl
    have h := hother .console (by simp)
    rw [hconsole] at h
    exact h

/-- A force that applies its entry (R135). -/
theorem exec_qfrc_applies {tag : Byte} {e : Entry} {s : State} (hr : s.consoleReady = true)
    (hfind : findEntry? s.ede.queue e.link e.tag = some e) (hstate : e.state = .deferred)
    (hwait : waitsBehind (earlierThan s.ede.queue e) e = false)
    (hcheck : s.entryChecks e.link e.edit e.lids.length = none) :
    ∃ t, exec (.qfrc .console tag e.link.code e.tag.toNat) s = .next t ∧
      t.scs = s.scs.applied e.edit e.lids ∧ t.ede.queue = withoutEntry s.ede.queue e.link e.tag ∧
      0 < t.ede.passesDue ∧ t.cli.lastAnswers tag .qfrc (.ok []) ∧
      t.cli.reports .commitDone (.commit e.link e.tag none) ∧
      t.rli = s.rli.tabled (s.ownCommit .commitDone e.link e.tag none) ∧ Restaged s t ∧
      SameBut [.scs, .ede, .sce, .wst, .cli, .rli] s t := by
  have hforce : s.forceEntry .console e =
      ((s.setQueue (withoutEntry s.ede.queue e.link e.tag)).applyEntry e, .ok []) := by
    simp only [State.forceEntry, hwait, hcheck]
    rfl
  obtain ⟨t, ht, hlink, hanswers, hother, hut⟩ := exec_lastAnswers (c := .qfrc .console tag e.link.code e.tag.toNat)
    (link := .console) hr rfl (instantsPast_of_ne (by simp)) (by simp) (entryNamed_wellFormed _ _).2
    (congrArg answered ((doQfrc_deferred hfind hstate).trans hforce))
  obtain ⟨hscs, hqueue, hdue, -, hraised, hrli, hrestaged, hsame⟩ :=
    applied_left (e := e) s (withoutEntry s.ede.queue e.link e.tag) (.refl _ s)
  generalize (s.setQueue (withoutEntry s.ede.queue e.link e.tag)).applyEntry e = u at *
  have hede : t.ede = u.ede := hut .ede (by decide)
  refine ⟨t, ht, (hut .scs (by decide)).trans hscs, hede ▸ hqueue, hede ▸ hdue, hanswers, ?_, ?_, ?_, ?_⟩
  · rw [show t.cli = _ from hlink]
    exact LinkIface.reports_pump hraised
  · exact (hother .rundown (by simp)).trans (congrArg LinkIface.pump hrli)
  · exact hrestaged.of_same rfl (hut .wst (by decide)) (State.snapshot_congr (hut .sce (by decide)) (hut .scs (by decide))
      (congrArg Arbiter.holder (hut .aua (by decide))) (congrArg Stager.rows (hut .wst (by decide)))
      (congrArg Stager.eyeRow (hut .wst (by decide))))
  · exact hsame.trans (hut.mono (by simp))

/-- A force that removes its entry (R135). -/
theorem exec_qfrc_drops {tag : Byte} {e : Entry} {s : State} (hr : s.consoleReady = true)
    (hfind : findEntry? s.ede.queue e.link e.tag = some e) (hstate : e.state = .deferred)
    (hwait : waitsBehind (earlierThan s.ede.queue e) e = false) {cause : Cause} {detail : Nat}
    (hcheck : s.entryChecks e.link e.edit e.lids.length = some (cause, detail)) :
    ∃ t, exec (.qfrc .console tag e.link.code e.tag.toNat) s = .next t ∧ t.scs = s.scs.release e.lids ∧
      t.ede = { s.ede with
        queue := withoutEntry s.ede.queue e.link e.tag, passesDue := s.ede.passesDue + 1,
        refusal := some ⟨.console, .qfrc, cause, detail⟩ } ∧
      t.cli = linkAfter s.cli (raiseIn s.cli.notices .commitRefused (.commit e.link e.tag (some cause)))
        ⟨tag, Mnem.qfrc.bytes, .refused cause detail⟩ ∧
      t.rli = s.rli.tabled (s.ownCommit .commitRefused e.link e.tag (some cause)) ∧
      SameBut [.scs, .ede, .cli, .rli] s t := by
  have hforce : s.forceEntry .console e =
      refuse ((s.setQueue (withoutEntry s.ede.queue e.link e.tag)).dropEntry e cause) .console .qfrc cause detail := by
    simp only [State.forceEntry, hwait, hcheck]
    rfl
  obtain ⟨t, ht, hlink, -, hother, hut⟩ := exec_lastAnswers (c := .qfrc .console tag e.link.code e.tag.toNat)
    (link := .console) hr rfl (instantsPast_of_ne (by simp)) (by simp) (entryNamed_wellFormed _ _).2
    (congrArg answered ((doQfrc_deferred hfind hstate).trans hforce))
  obtain ⟨hconsole, hrundown⟩ := (s.setQueue (withoutEntry s.ede.queue e.link e.tag)).dropEntry_link e cause
  have hframe := s.setQueue_sameBut (withoutEntry s.ede.queue e.link e.tag)
  refine ⟨t, ht, ?_, ?_, ?_, ?_, ?_⟩
  · rw [hut .scs (by decide), refuse, State.recordRefusal_scs, State.dropEntry_scs, State.setQueue_scs]
  · rw [hut .ede (by decide), refuse, State.recordRefusal, State.dropEntry_ede]
    rfl
  · exact hlink.trans (linkAfter_of_raised (l := s.cli) hconsole _)
  · exact (hother .rundown (by simp)).trans (congrArg LinkIface.pump hrundown)
  · have hrefused := refuse_sameBut ((s.setQueue (withoutEntry s.ede.queue e.link e.tag)).dropEntry e cause) .console .qfrc
      cause detail
    exact (((hframe.mono (by simp)).trans (State.dropEntry_sameBut _ e cause)).trans (hrefused.mono (by simp))).trans
      (hut.mono (by simp))

/-- Settles O40: QCAN on an entry in COPYING and on any other, QCAN and QFRC refused, and QFRC on a DEFERRED entry. -/
theorem cancelAndForce : Obligations.CancelAndForce := by
  refine ⟨?_, ?_, ?_⟩
  · intro link tag e s hs hr hown hfind
    refine ⟨fun hstate => ?_, fun hstate => exec_qcan_removes hr hown hfind hstate⟩
    have hl : ¬(link = .rundown ∧ e.link = .console) := by
      rintro ⟨h, hc⟩
      rw [hown h] at hc
      cases hc
    have hmark : s.cancelEntry e = (s.setQueue (changeEntry s.ede.queue e.link e.tag
        (fun x => { x with cancelMarked := true })), .ok (flag true)) := by rw [State.cancelEntry, if_pos hstate]
    exact exec_edeOnly (c := .qcan link tag e.link.code e.tag.toNat) hs hr rfl (instantsPast_of_ne (by simp))
      (by simp [rundownPermitted, Request.mnem]) (entryNamed_wellFormed _ _).1
      (congrArg answered ((doQcan_found hl hfind).trans hmark)) (s.setQueue_sameBut _)
  · intro link entryLink tag entryTag s hs hr
    refine ⟨?_, ?_, ?_⟩
    · rintro rfl rfl
      exact exec_unchanged (c := .qcan .rundown tag _ entryTag.toNat) hs hr rfl (instantsPast_of_ne (by simp))
        (by simp [rundownPermitted, Request.mnem]) (entryNamed_wellFormed .console entryTag).1 rfl
    · intro hown hfind
      have hl : ¬(link = .rundown ∧ entryLink = .console) := by
        rintro ⟨h, hc⟩
        rw [hown h] at hc
        cases hc
      exact exec_refused (c := .qcan link tag entryLink.code entryTag.toNat) hs hr rfl (instantsPast_of_ne (by simp))
        (by simp [rundownPermitted, Request.mnem]) (entryNamed_wellFormed _ _).1
        (congrArg answered (doQcan_absent hl hfind))
    · rintro cause rfl h
      exact exec_refused (c := .qfrc .console tag entryLink.code entryTag.toNat) hs hr rfl (instantsPast_of_ne (by simp))
        (by simp) (entryNamed_wellFormed _ _).2 (congrArg answered (doQfrc_refused h))
  · intro tag e s hs hr hfind hstate hwait
    exact ⟨fun hcheck => exec_qfrc_applies hr hfind hstate hwait hcheck,
      fun cause detail hcheck => exec_qfrc_drops hr hfind hstate hwait hcheck⟩


/-! ### Copy completion (R128) -/

theorem Store.writePage_pool_kept {st : Store} {lids : List Nat} {page : Page} {i : Nat} {l : PoolLine}
    (hl : st.pool[i]? = some l) (hnot : l.lid ∉ lids) : (st.writePage lids page).pool[i]? = some l := by
  simp only [Store.writePage, List.getElem?_map, hl, Option.map_some, List.idxOf?_eq_none_iff.2 hnot]

theorem Store.writePage_pool_written {st : Store} {lids : List Nat} (hnodup : lids.Nodup) {page : Page} {i k : Nat}
    {l : PoolLine} {c : LineContent} (hl : st.pool[i]? = some l) (hk : lids[k]? = some l.lid)
    (hc : page[k]? = some (some c)) : (st.writePage lids page).pool[i]? = some ⟨l.lid, l.story, some c⟩ := by
  obtain ⟨hlt, hget⟩ := List.getElem?_eq_some_iff.1 hk
  have hcut : lids = lids.take k ++ l.lid :: lids.drop (k + 1) := by
    rw [← hget, List.getElem_cons_drop, List.take_append_drop]
  have hnot : l.lid ∉ lids.take k := by
    rw [hcut] at hnodup
    exact fun hm => (List.nodup_append.1 hnodup).2.2 _ hm _ (by simp) rfl
  have hidx : lids.idxOf? l.lid = some k := by
    rw [hcut, idxOf?_at hnot, List.length_take, Nat.min_eq_left hlt.le]
  simp only [Store.writePage, List.getElem?_map, hl, Option.map_some, hidx, List.getD_eq_getElem?_getD, hc,
    Option.getD_some]

/-- Settles O37: a marked cancel, the pass of any other entry, and the page as written. -/
theorem copyCompletes : Obligations.CopyCompletes := by
  refine ⟨?_, ?_⟩
  · intro link e k n page s hslot hentry
    have hnext : exec (.copyCompletion link) s = finish (s.copyDone link page e) := by
      simp only [exec, execCopyCompletion, hslot, hentry]
    refine ⟨_, hnext, ?_, fun hmarked => ?_, fun hunmarked => ?_⟩
    · rw [State.settle_slot, State.copyDone_slot]
    · rw [State.copyDone_eq, if_pos hmarked]
      have hframe : SameBut [.scs, .ede] s ((s.pageCopied link page e).setQueue (withoutEntry s.ede.queue e.link e.tag)) :=
        (s.pageCopied_sameBut link page e).trans ((State.setQueue_sameBut _ _).mono (by simp))
      obtain ⟨hscs, hede, hreported, hsame⟩ := dropped_settled (e := e) _ .cancelled hframe
      refine ⟨?_, ?_, hreported, hsame⟩
      · rw [hscs, State.setQueue_scs, State.pageCopied, State.setSlot_scs]
      · rw [hede]
        cases link <;> rfl
    · rw [State.copyDone_eq, if_neg (by simp [hunmarked])]
      have hqueue : ({ s with scs := s.scs.writePage e.lids page }.setSlot link .closed) = s.pageCopied link page e := rfl
      rw [hqueue]
      rfl
  · rintro st u lids page hnodup rfl
    refine ⟨rfl, rfl, by simp [Store.writePage], fun i l hl => ⟨Store.writePage_pool_kept hl, ?_⟩⟩
    exact fun k style mark text hk hc => Store.writePage_pool_written hnodup hl hk hc

/-! ### CLEAR SHOW (R19, R50) -/

/-- The state in which a CLEAR SHOW asks whether CONSOLE was active, with the triggers of the report and of the engine (R50). -/
def State.cleared (s : State) : State :=
  let s1 : State := { s with scs := Store.empty, ede := s.ede.clearShow, sce := s.sce.clearShow }
  ((s1.anchorEmptied s.sce).trigger).publishSince s.sce

theorem State.clearShow_eq (s : State) : s.clearShow = s.cleared.consoleStopped s.sce := rfl

@[simp] theorem State.cleared_frame (s : State) :
    s.cleared.msc = s.msc ∧ s.cleared.scs = Store.empty ∧ s.cleared.ports = s.ports ∧ s.cleared.dsh = s.dsh ∧
    s.cleared.aua = s.aua ∧ s.cleared.sce = s.sce.clearShow ∧ s.cleared.tbp = s.tbp ∧ s.cleared.loa = s.loa ∧
    s.cleared.lob = s.lob ∧ s.cleared.cli = s.cli ∧ s.cleared.rli = s.rli ∧ s.cleared.due = s.due ∧
    s.cleared.mem = s.mem ∧ s.cleared.pending = s.pending := by
  simp [State.cleared]

theorem State.cleared_ede (s : State) : s.cleared.ede = { s.ede with
    consoleSlot := .closed, rundownSlot := .closed, queue := [],
    passesDue := s.ede.passesDue + if s.sce.anchor = none then 0 else 1 } := by
  cases ha : s.sce.anchor <;> simp [State.cleared, State.anchorEmptied, ha, EditEngine.clearShow, State.passFollows]

theorem State.cleared_retriggered (s : State) : Retriggered s.cleared.snapshot s s.cleared := by
  have hfirst : Restaged s s.cleared := by
    refine Restaged.publishSince (Published.restaged ?_) _
    exact State.trigger_published (by simp)
  exact hfirst

/-- The grant after a CLEAR SHOW: re-evaluated where the manual speed was not 0, else as it stood (R50, R55). -/
theorem State.consoleStopped_cases (s : State) (e : ScrollEngine) :
    (e.manualSpeed = 0 → s.consoleStopped e = s) ∧ (e.manualSpeed ≠ 0 → s.consoleStopped e = s.regrant) :=
  ⟨fun h => by rw [State.consoleStopped, if_pos h], fun h => by rw [State.consoleStopped, if_neg h]⟩

/-- A re-evaluation keeps the stager, or triggers it (R62). -/
theorem Retriggered.regrant {f : Frame} {s t : State} (h : Retriggered f s t) : Retriggered f s t.regrant := by
  obtain ⟨-, hkeeps, hchanges⟩ := t.regrant_published
  by_cases hh : t.regrant.aua.holder = t.aua.holder
  · exact h.again (.inl (hkeeps hh))
  · exact h.again (.inr ((hchanges hh).2 h.buffer))

@[simp] theorem State.clearShow_blocks (s : State) :
    s.clearShow.scs = Store.empty ∧ s.clearShow.sce = s.sce.clearShow ∧ s.clearShow.ede = { s.ede with
      consoleSlot := .closed, rundownSlot := .closed, queue := [],
      passesDue := s.ede.passesDue + if s.sce.anchor = none then 0 else 1 } := by
  rw [State.clearShow_eq, ← State.cleared_ede]
  simp

/-- A grant re-evaluated stays so where its inputs stay as they are (R55). -/
theorem Reevaluated.of_same {s t u : State} (h : Reevaluated s t) (ha : u.aua = t.aua) (hm : u.msc.mode = t.msc.mode)
    (hp : u.ports = t.ports) (hv : u.sce.manualSpeed = t.sce.manualSpeed) (hc : u.tbp.autoMode = t.tbp.autoMode) :
    Reevaluated s u :=
  State.regrant_reevaluated (u := { t with
    aua := { t.aua with holder := s.aua.holder, inHoldOver := s.aua.inHoldOver, count := s.aua.count } })
    (ha.trans h) hm hp hv hc rfl

theorem Retriggered.geometry {f : Frame} {s t : State} (h : Retriggered f s t) :
    t.wst.rows = s.wst.rows ∧ t.wst.eyeRow = s.wst.eyeRow := by
  by_cases hb : s.wst.buffer = none
  · rw [h.1 hb]
    exact ⟨rfl, rfl⟩
  · rw [h.2 hb]
    exact ⟨rfl, rfl⟩

theorem State.clearShow_retriggered (s : State) :
    Retriggered { s.clearShow.snapshot with holder := s.aua.holder } s s.clearShow := by
  have hfirst : Retriggered s.cleared.snapshot s s.clearShow := by
    rw [State.clearShow_eq]
    obtain ⟨hsame, hregrant⟩ := s.cleared.consoleStopped_cases s.sce
    by_cases hv : s.sce.manualSpeed = 0
    · rw [hsame hv]
      exact s.cleared_retriggered
    · rw [hregrant hv]
      exact s.cleared_retriggered.regrant
  have hkept : { s.clearShow.snapshot with holder := s.aua.holder } = s.cleared.snapshot := by
    obtain ⟨hrows, heye⟩ := hfirst.geometry
    obtain ⟨hrows', heye'⟩ := s.cleared_retriggered.geometry
    have hsce : s.clearShow.sce = s.cleared.sce := by simp
    have hscs : s.clearShow.scs = s.cleared.scs := by simp
    have hholder : s.cleared.aua.holder = s.aua.holder := by simp
    simp only [State.snapshot, State.anchorOrdinal, hsce, hscs, hrows, heye, hrows', heye', hholder]
  rw [hkept]
  exact hfirst

/-- What CLEAR SHOW makes of arbiter and console table (R50, R55, R62). -/
theorem State.clearShow_grant (s : State) : GrantOnly s s.clearShow ∧ (s.sce.manualSpeed = 0 → s.clearShow.aua = s.aua) ∧
    (s.sce.manualSpeed ≠ 0 → Reevaluated s s.clearShow) ∧
    s.clearShow.cli = { s.cli with notices := s.tallyNotices s.clearShow.aua.holder } := by
  obtain ⟨hsame, hregrant⟩ := s.cleared.consoleStopped_cases s.sce
  have haua : s.cleared.aua = s.aua := by simp
  have hcli : s.cleared.cli = s.cli := by simp
  by_cases hv : s.sce.manualSpeed = 0
  · have heq : s.clearShow = s.cleared := hsame hv
    rw [heq, GrantOnly, haua, hcli]
    exact ⟨rfl, fun _ => rfl, fun h => absurd hv h, by simp [State.tallyNotices]⟩
  · have heq : s.clearShow = s.cleared.regrant := hregrant hv
    rw [heq]
    obtain ⟨honly, -⟩ := s.cleared.regrant_published
    refine ⟨?_, fun h => absurd h hv, fun _ => ?_, ?_⟩
    · rwa [GrantOnly, haua] at honly
    · exact State.regrant_reevaluated (u := s.cleared) rfl (by simp) (by simp) (by simp) (by simp) (by rw [haua])
    · rw [State.regrant_cli, State.regrant_aua, hcli]
      simp only [State.tallyNotices, haua, hcli]

/-- Settles O14. -/
theorem clearShowEmptiesScript : Obligations.ClearShowEmptiesScript := by
  intro tag s hs hr
  obtain ⟨honly, hkept, hregrant, hcli⟩ := s.clearShow_grant
  obtain ⟨hidle, hstaging⟩ := s.clearShow_retriggered
  have hnext := exec_console (c := .clrs .console tag) (r := .clrs) hs hr rfl (instantsPast_of_ne (by simp)) rfl
    (show serve .console tag .clrs s = (s.clearShow, some (.ok [])) from rfl) hcli (by simp)
  have hauth (h : s.authorityOk = true) : s.clearShow.authorityOk = true :=
    State.takeClear_authority (s := { s with scs := Store.empty, ede := s.ede.clearShow }) h
  obtain ⟨hscs, hsce, hede⟩ := s.clearShow_blocks
  refine ⟨_, hnext, hscs, hede, hsce, honly, hauth, hkept, fun hv => ?_, hidle, hstaging, rfl, ?_⟩
  · exact (hregrant hv).of_same rfl rfl rfl rfl rfl
  · simp [sameBut_iff]

end Sys2Proof.Machine

/-! PROOFS. The frame step (R26): the tops it crosses, where it comes to rest (R30 to R34), and what it leaves. -/

namespace Sys2Proof.Machine

/-! ### Tops in order (R9, R30) -/

theorem Store.mem_topsIn {st : Store} {p q t lid : Nat} :
    (t, lid) ∈ st.topsIn p q ↔ ∃ j, t = j * 4096 ∧ p < j * 4096 ∧ j * 4096 ≤ q ∧ st.order[j]? = some lid := by
  simp only [Store.topsIn, Config.unitsPerLine, topOf, Store.lineAt?, List.mem_filterMap, List.mem_range,
    Option.map_eq_some_iff, Prod.mk.injEq]
  constructor
  · rintro ⟨k, hk, x, hx, rfl, rfl⟩
    exact ⟨p / 4096 + 1 + k, rfl, by omega, by omega, hx⟩
  · rintro ⟨j, rfl, hp, hq, hj⟩
    have hidx : p / 4096 + 1 + (j - (p / 4096 + 1)) = j := by omega
    exact ⟨j - (p / 4096 + 1), by omega, lid, by rw [hidx]; exact hj, by rw [hidx], rfl⟩

/-- The tops up to a line, the line's own, and those after it. -/
theorem Store.topsIn_split {st : Store} {p q k lid : Nat} (hp : p < k * 4096) (hq : k * 4096 ≤ q)
    (hk : st.order[k]? = some lid) :
    st.topsIn p q = st.topsIn p (k * 4096 - 1) ++ (k * 4096, lid) :: st.topsIn (k * 4096) q := by
  have hcount : q / 4096 - p / 4096 = (k - 1 - p / 4096) + (1 + (q / 4096 - k)) := by omega
  have hbefore : (k * 4096 - 1) / 4096 - p / 4096 = k - 1 - p / 4096 := by omega
  have hafter : q / 4096 - k * 4096 / 4096 = q / 4096 - k := by omega
  have hat : p / 4096 + 1 + (k - 1 - p / 4096) = k := by omega
  have hlater (j : Nat) : p / 4096 + 1 + (k - 1 - p / 4096 + (1 + j)) = k * 4096 / 4096 + 1 + j := by omega
  simp only [Store.topsIn, Config.unitsPerLine, topOf, Store.lineAt?, hcount, hbefore, hafter, List.range_add,
    List.filterMap_append, List.filterMap_map, List.map_append, List.map_map, Function.comp_def, hlater]
  simp [hat, hk]

theorem Store.clearOfHold_iff (st : Store) (p q : Nat) :
    st.clearOfHold p q ↔ ∀ t ∈ st.topsIn p q, st.markOf t.2 ≠ .hold := by
  constructor
  · rintro h ⟨t, lid⟩ ht
    obtain ⟨j, -, hp, hq, hj⟩ := Store.mem_topsIn.1 ht
    exact h j lid hp hq hj
  · intro h j lid hp hq hj
    exact h (j * 4096, lid) (Store.mem_topsIn.2 ⟨j, rfl, hp, hq, hj⟩)

/-! ### Where a step comes to rest (R30 to R34) -/

theorem Store.landAt_of_line {st : Store} {q lid : Nat} (h : st.order[q / 4096]? = some lid) (v : Int) :
    st.landAt q v = some ⟨lid, q % 4096, v, false, q⟩ := by
  have hline : st.lineAt? (q / Config.unitsPerLine) = some lid := h
  simp only [Store.landAt, hline, Option.map_some]
  rfl

/-- A forward step stops at the first HOLD top ahead of it (R31). -/
theorem Store.landForward_hold {st : Store} {p v k lid : Nat} (hp : p < k * 4096) (hq : k * 4096 ≤ p + v)
    (hk : st.order[k]? = some lid) (hmark : st.markOf lid = .hold)
    (hfirst : ∀ j x, p < j * 4096 → j < k → st.order[j]? = some x → st.markOf x ≠ .hold) :
    st.landForward p v = some ⟨lid, 0, 0, true, k * 4096⟩ := by
  have hnone : (st.topsIn p (k * 4096 - 1)).find? (fun t => st.markOf t.2 = .hold) = none := by
    refine List.find?_eq_none.2 fun t ht => ?_
    have hclear : st.clearOfHold p (k * 4096 - 1) := fun j x hj hle hx => hfirst j x hj (by omega) hx
    simpa using (st.clearOfHold_iff _ _).1 hclear t ht
  rw [Store.landForward, Store.topsIn_split hp hq hk, List.find?_append, hnone]
  simp [hmark]

theorem Store.landForward_clear {st : Store} {p v : Nat} (h : st.clearOfHold p (p + v)) :
    st.landForward p v =
      if (st.order.length - 1) * 4096 < p + v then st.landAt ((st.order.length - 1) * 4096) 0 else st.landAt (p + v) v := by
  have hnone : (st.topsIn p (p + v)).find? (fun t => st.markOf t.2 = .hold) = none := by
    refine List.find?_eq_none.2 fun t ht => ?_
    simpa using (st.clearOfHold_iff _ _).1 h t ht
  rw [Store.landForward, hnone]
  rfl

/-- A forward step with no HOLD top ahead is clamped at the end position (R32). -/
theorem Store.landForward_end {st : Store} {p v lid : Nat} (h : st.clearOfHold p (p + v))
    (hend : (st.order.length - 1) * 4096 < p + v) (hlast : st.order[st.order.length - 1]? = some lid) :
    st.landForward p v = some ⟨lid, 0, 0, false, (st.order.length - 1) * 4096⟩ := by
  rw [Store.landForward_clear h, if_pos hend, Store.landAt_of_line (lid := lid) (by simpa using hlast)]
  simp

/-- A forward step with no HOLD top ahead and none past the end moves by v (R30). -/
theorem Store.landForward_free {st : Store} {p v lid : Nat} (h : st.clearOfHold p (p + v))
    (hend : p + v ≤ (st.order.length - 1) * 4096) (hline : st.order[(p + v) / 4096]? = some lid) :
    st.landForward p v = some ⟨lid, (p + v) % 4096, v, false, p + v⟩ := by
  rw [Store.landForward_clear h, if_neg (by omega), Store.landAt_of_line hline]

theorem Store.landBackward_top {st : Store} {p lid : Nat} {v : Int} (h : (p : Int) + v < 0)
    (hfirst : st.order[0]? = some lid) : st.landBackward p v = some ⟨lid, 0, 0, false, 0⟩ := by
  rw [Store.landBackward, if_pos h, Store.landAt_of_line hfirst]

theorem Store.landBackward_free {st : Store} {p lid : Nat} {v : Int} (h : (0 : Int) ≤ p + v)
    (hline : st.order[((p : Int) + v).toNat / 4096]? = some lid) : st.landBackward p v =
      some ⟨lid, ((p : Int) + v).toNat % 4096, v, false, ((p : Int) + v).toNat⟩ := by
  rw [Store.landBackward, if_neg (by omega), Store.landAt_of_line hline]

theorem Store.lastCue?_none {st : Store} {p q : Nat}
    (h : ∀ j x, p < j * 4096 → j * 4096 ≤ q → st.order[j]? = some x → (st.markOf x).cue? = none) :
    (st.topsIn p q).filterMap (fun t => (st.markOf t.2).cue?) = [] := by
  refine List.filterMap_eq_nil_iff.2 ?_
  rintro ⟨t, lid⟩ ht
  obtain ⟨j, -, hp, hq, hj⟩ := Store.mem_topsIn.1 ht
  exact h j lid hp hq hj

/-- Settles O16. -/
theorem stepLandings : Obligations.StepLandings := by
  refine ⟨fun st p v k lid hp hq hk hmark hfirst => Store.landForward_hold hp hq hk hmark hfirst, ?_, ?_, ?_⟩
  · intro st p v hin hclear
    refine ⟨fun hend => ?_, fun hend => ?_⟩
    · have hlast := List.getElem?_eq_getElem (l := st.order) (i := st.order.length - 1) (by omega)
      exact ⟨_, hlast, Store.landForward_end hclear hend hlast⟩
    · have hline := List.getElem?_eq_getElem (l := st.order) (i := (p + v) / 4096) (by omega)
      exact ⟨_, hline, Store.landForward_free hclear hend hline⟩
  · intro st p v hv hin
    refine ⟨?_, fun hfree => ?_⟩
    · have hfirst := List.getElem?_eq_getElem (l := st.order) (i := 0) (by omega)
      exact ⟨_, hfirst, fun hneg => Store.landBackward_top hneg hfirst⟩
    · have hline := List.getElem?_eq_getElem (l := st.order) (i := ((p : Int) + v).toNat / 4096) (by omega)
      exact ⟨_, hline, Store.landBackward_free hfree hline⟩
  · intro st p q
    refine ⟨fun k lid c hp hq hk hcue hlater => ?_, fun hnone => ?_⟩
    · have htail := Store.lastCue?_none (st := st) (p := k * 4096) (q := q) fun j x hj hle hx => hlater j x (by omega) hle hx
      rw [Store.lastCue?, Store.topsIn_split hp hq hk, List.filterMap_append, List.filterMap_cons, htail,
        hcue]
      simp [Mark.cue?]
    · rw [Store.lastCue?, Store.lastCue?_none hnone]
      rfl

/-! ### What a step leaves (R26, R47) -/

theorem State.takeLanding_ede (s : State) (l : Landing) : (s.takeLanding l).ede = { s.ede with
    passesDue := s.ede.passesDue + if s.sce.anchor = some l.lid then 0 else 1 } := by
  have hmove : (s.takeLanding l).ede = (s.moveAnchor (some l.lid) l.fraction).ede := by
    unfold State.takeLanding
    dsimp only
    split <;> rfl
  rw [hmove, State.moveAnchor_ede]
  simp only [eq_comm (a := some l.lid)]

theorem State.takeLanding_cli (s : State) (l : Landing) : (s.takeLanding l).cli = { s.cli with
    notices := heldTold (storyTold s.cli.notices s.sce.currentStory (s.takeLanding l).sce.currentStory)
      (if l.held then .held else .running) l.lid } := by
  rw [State.takeLanding_sce]
  unfold State.takeLanding
  dsimp only
  split
  · simp [State.moveAnchor_told, heldTold]
  · simp [State.moveAnchor_told, heldTold]

theorem State.reportCues_cli (s : State) (p q : Nat) :
    (s.reportCues p q).cli = { s.cli with notices := cueTold s.cli.notices (s.scs.lastCue? p q) } := by
  unfold State.reportCues
  split
  · next n h => simp [h, cueTold]
  · next h => simp [h, cueTold]

/-- The state a step moves: the tick taken, the holder's buttons acted on (R26, R27). -/
def State.stepping (s : State) : State := s.scrollTickTaken.takeButtons

theorem State.stepping_sce (s : State) : s.stepping.sce = s.pressed := rfl

theorem exec_scrollStep (s : State) : exec .scrollStep s = .next (s.stepping.stepMove.publishSince s.sce).settle := rfl

/-- An event that leaves the rundown link alone starts no send on it. -/
theorem SameBut.settled_console {bs : List Block} {s u : State} (hs : s.settled = true) (h : SameBut bs s u)
    (hc : .cli ∈ bs) : SameBut bs s u.settle := by
  intro b hb
  by_cases hr : b = .rli
  · subst hr
    have hrli : u.rli = s.rli := h .rli hb
    show u.rli.pump = s.rli
    rw [hrli]
    exact ((State.settled_iff s).1 hs).2
  · have hcli : b ≠ .cli := fun hcli => hb (hcli ▸ hc)
    have hkept := u.settle_sameBut b (by simp [hcli, hr])
    have hsame := h b hb
    cases b <;> exact Eq.trans hkept hsame

theorem State.publishSince_wstOnly (s : State) (e : ScrollEngine) : SameBut [.wst] s (s.publishSince e) := by
  simp [sameBut_iff]

/-- The engine's move is all a step does beside emptying the latches, counting the tick and publishing. -/
theorem State.stepTaken_of {s m : State} (hset : s.settled = true) (hm : SameBut [.sce, .ede, .cli] s.stepping m) :
    s.StepTaken (m.publishSince s.sce).settle := by
  have hsce : (m.publishSince s.sce).settle.sce = m.sce := by simp
  have hwst : m.wst = s.wst := hm .wst (by decide)
  refine ⟨?_, ?_, ?_, ?_, ?_⟩
  · rw [State.settle_ports, (m.publishSince_frame s.sce).2.2.2.1]
    exact hm .ports (by decide)
  · have hdue : (m.publishSince s.sce).due = m.due := by simp
    rw [State.settle_due, hdue]
    exact hm .due (by decide)
  · rw [hsce]
    rintro ⟨ha, hf, hst⟩
    rw [State.publishSince_same ha hf hst]
    exact hwst
  · rw [hsce]
    intro hne
    rw [State.publishSince_changed hne]
    exact (State.trigger_published hwst).of_same rfl rfl rfl
  · have hstepping : SameBut [.sce, .ports, .due] s s.stepping := by
      simp [sameBut_iff, State.stepping, State.scrollTickTaken]
    have hpublish : SameBut [.wst] m (m.publishSince s.sce) := m.publishSince_wstOnly s.sce
    refine SameBut.settled_console hset ?_ (by simp)
    exact ((hstepping.mono (by simp)).trans (hm.mono (by simp))).trans (hpublish.mono (by simp))

/-- A step lands where its move does. -/
theorem State.landsOn_of {s m : State} {lid fraction : Nat} {v : Int} {state : ScrollState} {cue : Option Nat}
    (hset : s.settled = true) (hmove : s.stepping.stepMove = m) (hm : SameBut [.sce, .ede, .cli] s.stepping m)
    (hsce : m.sce = { s.pressed with
      anchor := some lid, fraction := fraction, velocity := v, state := state, pendingJump := none,
      currentStory := if s.sce.anchor = some lid then s.sce.currentStory else s.scs.storyOfLine? lid })
    (hede : m.ede = { s.ede with passesDue := s.ede.passesDue + if s.sce.anchor = some lid then 0 else 1 })
    (hcli : m.cli = { s.cli with
      notices := cueTold (heldTold (storyTold s.cli.notices s.sce.currentStory m.sce.currentStory) state lid) cue }) :
    ∃ t, exec .scrollStep s = .next t ∧ s.LandsOn t lid fraction v state cue := by
  refine ⟨_, exec_scrollStep s, ?_⟩
  rw [hmove]
  have hsame : (m.publishSince s.sce).settle.sce = m.sce := by simp
  refine ⟨hsame.trans hsce, ?_, ?_, State.stepTaken_of hset hm⟩
  · rw [← hede]
    simp
  · rw [hsame, State.settle_cli, LinkIface.tabled, ← hcli]
    simp

/-- A step stays where its move changes the engine only in velocity. -/
theorem State.staysAs_of {s m : State} {e : ScrollEngine} (hset : s.settled = true) (hmove : s.stepping.stepMove = m)
    (hm : SameBut [.sce] s.stepping m) (hsce : m.sce = e) : ∃ t, exec .scrollStep s = .next t ∧ s.StaysAs t e := by
  refine ⟨_, exec_scrollStep s, ?_⟩
  rw [hmove]
  have hede : m.ede = s.ede := hm .ede (by decide)
  have hcli : m.cli = s.cli := hm .cli (by decide)
  refine ⟨?_, ?_, ?_, State.stepTaken_of hset (hm.mono (by simp))⟩
  · rw [← hsce]
    simp
  · rw [← hede]
    simp
  · rw [State.settle_cli, (m.publishSince_frame s.sce).2.2.2.2.2.2.2.2.2.2.1, hcli]
    exact ((State.settled_iff s).1 hset).1


/-! ### The steps without a jump (R24 to R26, R28) -/

theorem State.stepping_port (s : State) (n : Fin 4) : s.stepping.port n = { s.port n with buttons := Edges.none } := by
  simp [State.stepping, State.port, State.scrollTickTaken]

/-- The buttons acted on and the latches emptied leave the target as it was (R27, R28). -/
theorem State.stepping_target (s : State) (p : Nat) : s.stepping.target p = s.target p := by
  obtain ⟨hspeed, -⟩ := s.sce.press_speeds s.holderButtons
  obtain ⟨-, -, hstory⟩ := s.sce.press_position s.holderButtons
  have hhand (n : Fin 4) : s.stepping.handTarget n = s.handTarget n := by
    simp only [State.handTarget, State.portCounts, State.stepping_port]
    rfl
  have hauto : s.stepping.autoDemand p = s.autoDemand p := by
    simp only [State.autoDemand, State.stepping_sce, State.pressed, hstory]
    rfl
  simp only [State.target, hhand, hauto, State.stepping_sce, State.pressed, hspeed]
  rfl

theorem State.stepping_position (s : State) : s.stepping.position? = s.position? := by
  obtain ⟨hanchor, hfraction, -⟩ := s.sce.press_position s.holderButtons
  simp only [State.position?, State.anchorOrdinal, State.stepping_sce, State.pressed, hanchor, hfraction]
  rfl

/-- A step that moves integrates the slewed v (R26, R29). -/
theorem State.movesBy_stepMove {s : State} {p : Nat} {v : Int} (h : s.movesBy p v) :
    s.stepping.stepMove = s.stepping.integrate p v := by
  obtain ⟨lid, o, hanchor, hordinal, hp, hrun, hjump, hmode, hslew⟩ := h
  obtain ⟨-, haccel, hdecel⟩ := s.sce.press_speeds s.holderButtons
  have hposition : s.stepping.position? = some p := by
    rw [State.stepping_position, State.position?, State.anchorOrdinal, hanchor, Option.bind_some, hordinal, hp]
    rfl
  have hfree : s.stepping.heldStill = false := by
    have hmode' : s.stepping.msc.mode.suspended = false := hmode
    simp [State.heldStill, State.stepping_sce, hrun, hmode']
  have hjump' : s.stepping.sce.pendingJump = none := hjump
  simp only [State.stepMove, hjump', hposition, hfree, Bool.false_eq_true, if_false, State.drive, State.stepping_target]
  rw [← hslew]
  simp only [State.stepping_sce, State.pressed, haccel, hdecel]

/-- The engine at a landing of a step. -/
theorem State.stepping_landed {s : State} (l : Landing) (hrun : s.pressed.state = .running)
    (hjump : s.pressed.pendingJump = none) : (s.stepping.takeLanding l).sce = { s.pressed with
      anchor := some l.lid, fraction := l.fraction, velocity := l.velocity, state := if l.held then .held else .running,
      pendingJump := none,
      currentStory := if s.sce.anchor = some l.lid then s.sce.currentStory else s.scs.storyOfLine? l.lid } := by
  obtain ⟨hanchor, -, hstory⟩ := s.sce.press_position s.holderButtons
  rw [State.takeLanding_sce, State.stepping_sce, hrun, State.storyAt, State.stepping_sce, State.pressed, hanchor, hstory,
    ← hjump]
  simp only [eq_comm (a := some l.lid)]
  rfl

theorem State.stepping_landed_ede (s : State) (l : Landing) : (s.stepping.takeLanding l).ede = { s.ede with
    passesDue := s.ede.passesDue + if s.sce.anchor = some l.lid then 0 else 1 } := by
  obtain ⟨hanchor, -, -⟩ := s.sce.press_position s.holderButtons
  rw [State.takeLanding_ede, State.stepping_sce, State.pressed, hanchor]
  rfl

theorem State.stepping_landed_cli (s : State) (l : Landing) : (s.stepping.takeLanding l).cli = { s.cli with
    notices := heldTold (storyTold s.cli.notices s.sce.currentStory (s.stepping.takeLanding l).sce.currentStory)
      (if l.held then .held else .running) l.lid } := by
  obtain ⟨-, -, hstory⟩ := s.sce.press_position s.holderButtons
  rw [State.takeLanding_cli, State.stepping_sce, State.pressed, hstory]
  rfl

section
variable {s : State} {p : Nat} {v : Int} (hset : s.settled = true) (hmoves : s.movesBy p v)
include hset hmoves

/-- A forward step lands where its integration does, and tells the last CUE top crossed (R30 to R33). -/
theorem State.landsOn_forward {l : Landing} (hv : 0 < v) (hl : s.scs.landForward p v.toNat = some l) :
    ∃ t, exec .scrollStep s = .next t ∧
      s.LandsOn t l.lid l.fraction l.velocity (if l.held then .held else .running) (s.scs.lastCue? p l.stop) := by
  have hmove : s.stepping.stepMove = (s.stepping.takeLanding l).reportCues p l.stop := by
    have hl' : s.stepping.scs.landForward p v.toNat = some l := hl
    simp only [State.movesBy_stepMove hmoves, State.integrate, if_pos hv, hl']
  obtain ⟨_, _, _, _, _, hrun, hjump, -, -⟩ := hmoves
  have hsce : ((s.stepping.takeLanding l).reportCues p l.stop).sce = (s.stepping.takeLanding l).sce := by simp
  refine State.landsOn_of hset hmove ?_ ?_ ?_ ?_
  · simp [sameBut_iff]
  · rw [hsce, State.stepping_landed l hrun hjump]
  · rw [← State.stepping_landed_ede]
    simp
  · have hscs : (s.stepping.takeLanding l).scs = s.scs := by simp [State.stepping, State.scrollTickTaken]
    rw [hsce, State.reportCues_cli, hscs, State.stepping_landed_cli]

/-- A backward step lands where its integration does, with no mark (R34). -/
theorem State.landsOn_backward {l : Landing} (hv : v < 0) (hl : s.scs.landBackward p v = some l) (hfree : l.held = false) :
    ∃ t, exec .scrollStep s = .next t ∧ s.LandsOn t l.lid l.fraction l.velocity .running none := by
  have hmove : s.stepping.stepMove = s.stepping.takeLanding l := by
    have hl' : s.stepping.scs.landBackward p v = some l := hl
    simp only [State.movesBy_stepMove hmoves, State.integrate, if_neg (show ¬0 < v by omega), if_pos hv, hl']
  obtain ⟨_, _, _, _, _, hrun, hjump, -, -⟩ := hmoves
  have hlanded := State.stepping_landed l hrun hjump
  have hcli := s.stepping_landed_cli l
  rw [hfree] at hlanded hcli
  exact State.landsOn_of hset hmove (by simp [sameBut_iff]) hlanded (s.stepping_landed_ede l) hcli

end

/-- A step at rest sets v to 0 (R24). -/
theorem State.staysAs_still {s : State} (hset : s.settled = true) (hmove : s.stepping.stepMove = s.stepping.setVelocity 0) :
    ∃ t, exec .scrollStep s = .next t ∧ s.StaysAs t { s.pressed with velocity := 0 } :=
  State.staysAs_of hset hmove (by simp [sameBut_iff, State.setVelocity]) rfl

/-- Settles O17: the landings of a moving step, and a step at rest. -/
theorem scrollStepMovesOrStays : Obligations.ScrollStepMovesOrStays := by
  refine ⟨?_, ?_⟩
  · intro s p v lid hset hmoves
    have hnat (hv : 0 < v) : p + v.toNat = (p + v).toNat := by omega
    refine ⟨fun k hv hp hq hk hmark hfirst => ?_, fun hv hclear hlast hend => ?_, fun hv hclear hline hend => ?_,
      fun hv hneg hfirst => ?_, fun hv hfree hline => ?_, fun hv => ?_⟩
    · exact State.landsOn_forward hset hmoves hv (Store.landForward_hold hp (by omega) hk hmark hfirst)
    · rw [List.getLast?_eq_getElem?] at hlast
      exact State.landsOn_forward hset hmoves hv
        (Store.landForward_end (hnat hv ▸ hclear) (by omega) hlast)
    · rw [← hnat hv] at hclear hline ⊢
      have hland := State.landsOn_forward hset hmoves hv (Store.landForward_free hclear (by omega) hline)
      rwa [Int.toNat_of_nonneg hv.le] at hland
    · exact State.landsOn_backward hset hmoves hv (Store.landBackward_top hneg hfirst) rfl
    · exact State.landsOn_backward hset hmoves hv (Store.landBackward_free hfree hline) rfl
    · refine State.staysAs_still hset ?_
      rw [State.movesBy_stepMove hmoves, hv]
      rfl
  · intro s hset hrest hjump
    refine State.staysAs_still hset ?_
    have hjump' : s.stepping.sce.pendingJump = none := hjump
    simp only [State.stepMove, hjump']
    obtain ⟨hanchor, -, -⟩ := s.sce.press_position s.holderButtons
    cases hp : s.stepping.position? with
    | none => rfl
    | some p =>
      have hheld : s.stepping.heldStill = true := by
        rcases hrest with hstate | hempty | hmode
        · simp [State.heldStill, State.stepping_sce, hstate]
        · rw [State.stepping_position, State.position?, State.anchorOrdinal, hempty] at hp
          cases hp
        · have hmode' : s.stepping.msc.mode.suspended = true := hmode
          simp [State.heldStill, hmode']
      simp only [hheld, if_true]


/-! ### Jumps (R41, R42) -/

theorem ScrollState.afterJump_eq (st : ScrollState) : st.afterJump = if st = .held then .running else st := by
  cases st <;> rfl

theorem State.applyJump_some {s : State} {j : JumpTarget} {lid : Nat} (h : s.resolve j = some lid) :
    (s.applyJump j).sce = { s.sce with
      anchor := some lid, fraction := 0, velocity := 0, pendingJump := none,
      state := if s.sce.state = .held then .running else s.sce.state, currentStory := s.storyAt (some lid) } ∧
    (s.applyJump j).ede = { s.ede with
      passesDue := s.ede.passesDue + if s.sce.anchor = some lid then 0 else 1 } ∧
    (s.applyJump j).cli = { s.cli with
      notices := storyTold s.cli.notices s.sce.currentStory (s.storyAt (some lid)) } := by
  refine ⟨?_, ?_, ?_⟩
  · rw [State.applyJump_sce, ← ScrollState.afterJump_eq]
    simp only [h]
  · simp only [State.applyJump, h, State.moveAnchor_ede, eq_comm (a := some lid)]
  · simp only [State.applyJump, h, State.moveAnchor_told]
    rfl

theorem State.applyJump_none {s : State} {j : JumpTarget} (h : s.resolve j = none) :
    (s.applyJump j).sce = { s.sce with pendingJump := none } ∧ (s.applyJump j).ede = s.ede ∧
    (s.applyJump j).cli = { s.cli with notices := raiseIn s.cli.notices .jumpDiscarded (.jump j) } := by
  simp only [State.applyJump, h]
  exact ⟨rfl, rfl, rfl⟩

theorem State.stepping_resolve (s : State) (j : JumpTarget) : s.stepping.resolve j = s.resolve j := by
  obtain ⟨-, -, hstory⟩ := s.sce.press_position s.holderButtons
  cases j <;> simp only [State.resolve, State.stepping_sce, State.pressed, hstory] <;> rfl

theorem State.stepping_jump {s : State} {j : JumpTarget} (h : s.pressed.pendingJump = some j) :
    s.stepping.stepMove = s.stepping.applyJump j := by
  have hjump : s.stepping.sce.pendingJump = some j := h
  simp only [State.stepMove, hjump]

theorem exec_scrollStep_jumps {s : State} {j : JumpTarget} {lid : Nat} (hset : s.settled = true)
    (hjump : s.pressed.pendingJump = some j) (hresolve : s.resolve j = some lid) :
    ∃ t, exec .scrollStep s = .next t ∧
      s.LandsOn t lid 0 0 (if s.pressed.state = .held then .running else s.pressed.state) none := by
  obtain ⟨hanchor, -, hstory⟩ := s.sce.press_position s.holderButtons
  obtain ⟨hsce, hede, hcli⟩ := State.applyJump_some (s.stepping_resolve j ▸ hresolve)
  have hat : s.stepping.storyAt (some lid) =
      if s.sce.anchor = some lid then s.sce.currentStory else s.scs.storyOfLine? lid := by
    rw [State.storyAt, State.stepping_sce, State.pressed, hanchor, hstory]
    simp only [eq_comm (a := some lid)]
    rfl
  rw [hat] at hsce hcli
  have hstate : (if s.pressed.state = .held then ScrollState.running else s.pressed.state) ≠ .held := by
    split
    · simp
    · assumption
  refine State.landsOn_of hset (State.stepping_jump hjump) (by simp [sameBut_iff]) hsce ?_ ?_
  · rw [hede, State.stepping_sce, State.pressed, hanchor]
    rfl
  · rw [hcli, hsce, cueTold, heldTold, if_neg hstate, State.stepping_sce, State.pressed, hstory]
    rfl

theorem exec_scrollStep_discards {s : State} {j : JumpTarget} (hset : s.settled = true)
    (hjump : s.pressed.pendingJump = some j) (hresolve : s.resolve j = none) :
    ∃ t, exec .scrollStep s = .next t ∧ t.sce = { s.pressed with pendingJump := none } ∧ t.ede = s.ede ∧
      t.cli = s.cli.tabled (raiseIn s.cli.notices .jumpDiscarded (.jump j)) ∧ s.StepTaken t := by
  obtain ⟨hsce, hede, hcli⟩ := State.applyJump_none (s.stepping_resolve j ▸ hresolve)
  refine ⟨_, exec_scrollStep s, ?_⟩
  rw [State.stepping_jump hjump]
  refine ⟨?_, ?_, ?_, State.stepTaken_of hset (by simp [sameBut_iff])⟩
  · rw [← s.stepping_sce, ← hsce]
    simp
  · rw [← show s.stepping.ede = s.ede from rfl, ← hede]
    simp
  · have hkept : ((s.stepping.applyJump j).publishSince s.sce).cli = (s.stepping.applyJump j).cli := by simp
    rw [State.settle_cli, hkept, hcli]
    rfl

theorem Store.line?_lid {st : Store} {lid : Nat} {l : PoolLine} (h : st.line? lid = some l) : l.lid = lid := by
  have hfound := List.find?_some h
  simp only [Bool.and_eq_true, decide_eq_true_eq] at hfound
  exact hfound.1

theorem State.resolve_line (s : State) (lid : Nat) :
    s.resolve (.line lid) = if (s.scs.line? lid).isSome then some lid else none := by
  simp only [State.resolve]
  cases h : s.scs.line? lid with
  | none => rfl
  | some l => simp [Store.line?_lid h]

section
variable {st : Store} {before rest : List Story} {a : Story} (hnum : (st.rundown.map (·.number)).Nodup)
  (hcut : st.rundown = before ++ a :: rest)
include hnum hcut

theorem Store.storyIndex_at : st.storyIndex a.number = before.length := by
  rw [Store.storyIndex, hcut, findStoryIdx_at (numbers_around (hcut ▸ hnum))]

theorem Store.firstLineAfter?_at : st.firstLineAfter? (st.storyIndex a.number) = (rest.flatMap (·.lines)).head? := by
  rw [Store.storyIndex_at hnum hcut, Store.firstLineAfter?, hcut, List.append_cons,
    List.drop_left' (by simp)]

theorem Store.resolveNext_at : st.resolveNext a.number = ((rest.flatMap (·.lines)).head?).or st.order.getLast? := by
  rw [Store.resolveNext, Store.firstLineAfter?_at hnum hcut]
  cases (rest.flatMap (·.lines)).head? <;> rfl

theorem Store.resolveStory_first {lid : Nat} {ls : List Nat} (h : a.lines = lid :: ls) :
    st.resolveStory a.number = some lid := by
  simp only [Store.resolveStory, Store.story?_at hnum hcut, h, List.head?_cons]

theorem Store.resolveStory_empty (h : a.lines = []) :
    st.resolveStory a.number = ((rest.flatMap (·.lines)).head?).or st.order.getLast? := by
  simp only [Store.resolveStory, Store.story?_at hnum hcut, h, List.head?_nil, Store.firstLineAfter?_at hnum hcut]
  cases (rest.flatMap (·.lines)).head? <;> rfl

theorem Store.prevStory_at : st.firstLineOfPrevStory? (st.storyIndex a.number) =
    ((before.filter (fun x => !x.lines.isEmpty)).getLast?).bind (·.lines.head?) := by
  rw [Store.storyIndex_at hnum hcut, Store.firstLineOfPrevStory?, hcut, List.take_left' rfl]

theorem Store.resolvePrev_nearest {b1 b2 : List Story} {x : Story} {lid : Nat} {ls : List Nat}
    (hbefore : before = b1 ++ x :: b2) (hx : x.lines = lid :: ls) (hempty : ∀ y ∈ b2, y.lines = []) :
    st.resolvePrev a.number = some lid := by
  have hnone : b2.filter (fun y => !y.lines.isEmpty) = [] :=
    List.filter_eq_nil_iff.2 fun y hy => by simp [hempty y hy]
  simp only [Store.resolvePrev, Store.prevStory_at hnum hcut, hbefore, List.filter_append, List.filter_cons, hx, hnone]
  simp [hx]

theorem Store.resolvePrev_none (hempty : ∀ y ∈ before, y.lines = []) :
    st.resolvePrev a.number = a.lines.head? := by
  have hnone : before.filter (fun y => !y.lines.isEmpty) = [] :=
    List.filter_eq_nil_iff.2 fun y hy => by simp [hempty y hy]
  simp only [Store.resolvePrev, Store.prevStory_at hnum hcut, hnone, Store.story?_at hnum hcut]
  rfl

end

/-- Settles O18: the jump applied or discarded, then what each target resolves to. -/
theorem scrollStepAppliesJump : Obligations.ScrollStepAppliesJump := by
  refine ⟨fun s j hset hjump => ⟨fun lid h => exec_scrollStep_jumps hset hjump h, exec_scrollStep_discards hset hjump⟩,
    fun s => ⟨?_, fun hstory => ?_, fun n hnone => ?_, s.resolve_line⟩, ?_⟩
  · simp only [State.resolve, Store.lineAt?, List.head?_eq_getElem?]
  · simp only [State.resolve, hstory, Option.bind_none, and_self]
  · have hgone : s.scs.story? n = none := List.find?_eq_none.2 fun x hx => by simpa using hnone x hx
    simp only [State.resolve, Store.resolveStory, hgone]
  · intro s before rest a hnum hcut
    refine ⟨fun lid ls h => Store.resolveStory_first hnum hcut h, Store.resolveStory_empty hnum hcut, fun hstory => ?_⟩
    simp only [State.resolve, hstory, Option.bind_some]
    exact ⟨Store.resolveNext_at hnum hcut,
      fun b1 b2 x lid ls hbefore hx hempty => Store.resolvePrev_nearest hnum hcut hbefore hx hempty,
      Store.resolvePrev_none hnum hcut⟩


end Sys2Proof.Machine

/-! PROOFS. The requests that re-evaluate the grant (R36, R40, R64 to R67, R115), the grant rule case by case (R53 to R62), and
the target of a step (R28, R115 to R117). -/

namespace Sys2Proof.Machine

/-! ### A grant re-evaluated in an event (R55, R62) -/

/-- What a re-evaluation leaves of arbiter and stager, the rest of the state as it stands after it. -/
theorem State.regrant_regranted {s u t : State} (hwst : u.wst = s.wst) (hholder : u.aua.holder = s.aua.holder)
    (ht : SameBut [.cli, .rli] u.regrant t) : Regranted s t ∧ t.authorityOk = true := by
  have haua : t.aua = u.regrant.aua := ht .aua (by decide)
  have htwst : t.wst = u.regrant.wst := ht .wst (by decide)
  have hsce : t.sce = u.regrant.sce := ht .sce (by decide)
  have hscs : t.scs = u.regrant.scs := ht .scs (by decide)
  have hauth : t.authorityOk = true := dependsOn_authorityOk.keep (by decide) ht u.regrant_authorityOk
  obtain ⟨-, hkeeps, hchanges⟩ := u.regrant_published
  refine ⟨⟨fun _ => hauth, fun h => ?_, fun h => ?_⟩, hauth⟩
  · rw [htwst, hkeeps (by rw [← haua, h, hholder]), hwst]
  · refine (hchanges (by rw [← haua, hholder]; exact h)).of_same hwst.symm htwst ?_
    exact State.snapshot_congr hsce hscs (by rw [haua]) (by rw [htwst]) (by rw [htwst])

/-- A console request whose owner writes an input of the grant and has it re-evaluated (R55, R62). -/
theorem exec_regrants {c : Instr} {tag : Byte} {r : Request} {s u : State} {st : Status} (hs : s.settled = true)
    (hr : s.consoleReady = true) (hc : c.request? = some (.console, tag, r)) (hi : Instr.instantsPast c s.tbp.now)
    (hw : r.wellFormed = true) (hserve : serve .console tag r s = (u.regrant, some st))
    (hu : SameBut [.aua, .sce, .tbp] s u)
    (hgrant : u.aua = { u.aua with holder := s.aua.holder, inHoldOver := s.aua.inHoldOver, count := s.aua.count }) :
    ∃ t, exec c s = .next t ∧ t.aua = u.regrant.aua ∧ Regranted s t ∧ t.authorityOk = true ∧ Reevaluated s t ∧
      t.cli = linkAfter s.cli (s.tallyNotices t.aua.holder) ⟨tag, r.mnem.bytes, st⟩ ∧
      SameBut [.aua, .wst, .cli] u t := by
  have hcli : u.cli = s.cli := hu .cli (by decide)
  have hholder : u.aua.holder = s.aua.holder := by rw [hgrant]
  have hnotices : u.regrant.cli = { s.cli with notices := s.tallyNotices u.regrant.aua.holder } := by
    rw [State.regrant_cli, State.regrant_aua, hcli]
    simp only [State.tallyNotices, hholder, hcli]
  have hrli : u.regrant.rli = s.rli := by
    rw [← show u.rli = s.rli from hu .rli (by decide)]
    simp
  have hnext := exec_console hs hr hc hi hw hserve hnotices hrli
  have hlast : SameBut [.cli] u.regrant { u.regrant with
      cli := linkAfter s.cli (s.tallyNotices u.regrant.aua.holder) ⟨tag, r.mnem.bytes, st⟩ } := by
    simp [sameBut_iff]
  obtain ⟨hregranted, hauth⟩ := State.regrant_regranted (s := s) (hu .wst (by decide)) hholder
    (hlast.mono (by simp))
  refine ⟨_, hnext, rfl, hregranted, hauth, ?_, rfl, ?_⟩
  · exact State.regrant_reevaluated (u := u) rfl (by simp) (by simp) (by simp) (by simp) hgrant
  · simp [sameBut_iff]

/-! ### Manual speed and jumps (R36, R40) -/

theorem clampSpeed_eq (v : Int) : clampSpeed v = max (-16384) (min v 16384) := rfl

theorem mspd_wellFormed {v : Int} (h1 : -32768 ≤ v) (h2 : v ≤ 32767) : (Request.mspd v).wellFormed = true := by
  simp [Request.wellFormed, fitsSigned16, h1, h2]

/-- A jump accepted waits in the pending-jump slot (R40). -/
theorem exec_jump {tag : Byte} {kind param : Nat} {j : JumpTarget} {s : State} (hs : s.settled = true)
    (hr : s.consoleReady = true) (hw : (Request.jump kind param).wellFormed = true) (hj : jumpTarget? kind param = some j)
    (hknown : s.scs.targetKnown j = true) :
    ∃ t, exec (.jump .console tag kind param) s = .next t ∧ t.sce = { s.sce with pendingJump := some j } ∧
      t.cli = answeredWith s.cli tag .jump (.ok []) ∧ SameBut [.sce, .cli] s t := by
  have hdo : doJump .console kind param s = ({ s with sce := { s.sce with pendingJump := some j } }, .ok []) := by
    simp only [doJump, hj, hknown, if_true]
  exact ⟨_, exec_console_plain (r := .jump kind param) hs hr rfl (instantsPast_of_ne (by simp)) hw (congrArg answered hdo)
    rfl rfl, rfl, rfl, by simp [sameBut_iff]⟩

/-- Settles O20. -/
theorem speedAndJumpRequests : Obligations.SpeedAndJumpRequests := by
  refine ⟨?_, ?_⟩
  · intro tag v w s hs hr hlo hhi hw
    rw [← clampSpeed_eq] at hw
    by_cases hsame : w = 0 ↔ s.sce.manualSpeed = 0
    · have hdo : doMspd v s = ({ s with sce := { s.sce with manualSpeed := w } }, .ok (i16 w)) := by
        simp only [doMspd, State.setManualSpeed, ← hw, if_pos hsame]
      have hnext := exec_console_plain (c := .mspd .console tag v) (r := .mspd v) hs hr rfl (instantsPast_of_ne (by simp))
        (mspd_wellFormed hlo hhi) (congrArg answered hdo) rfl rfl
      have hauth (h : s.authorityOk = true) := doMspd_authority h v
      rw [hdo] at hauth
      refine ⟨_, hnext, rfl, ?_, rfl, ⟨hauth, fun _ => rfl, fun h => absurd rfl h⟩, ?_, fun _ => ?_, fun h => absurd hsame h⟩
      · simp only [State.tallyNotices, if_true]
        rfl
      · simp [sameBut_iff]
      · simp [sameBut_iff]
    · have hdo : doMspd v s = (State.regrant { s with sce := { s.sce with manualSpeed := w } }, .ok (i16 w)) := by
        simp only [doMspd, State.setManualSpeed, ← hw, if_neg hsame]
      obtain ⟨t, ht, haua, hregranted, hauth, hre, hcli, hframe⟩ := exec_regrants (c := .mspd .console tag v) (r := .mspd v)
        hs hr rfl (instantsPast_of_ne (by simp)) (mspd_wellFormed hlo hhi) (congrArg answered hdo)
        (by simp [sameBut_iff]) rfl
      have hsce : t.sce = { s.sce with manualSpeed := w } := hframe .sce (by decide)
      refine ⟨t, ht, hsce, hcli, ?_, hregranted, ?_, fun h => absurd h hsame, fun _ => hre⟩
      · rw [GrantOnly, haua, State.regrant_aua]
      · have hwritten : SameBut [.sce] s { s with sce := { s.sce with manualSpeed := w } } := by simp [sameBut_iff]
        exact (hwritten.mono (by simp)).trans (hframe.mono (by simp))
  · intro tag n lid s hs hr
    refine ⟨exec_jump hs hr rfl rfl rfl, fun hn hstory => exec_jump hs hr (by simp [Request.wellFormed]; omega) rfl hstory,
      exec_jump hs hr rfl rfl rfl, exec_jump hs hr rfl rfl rfl,
      fun hlid hline => exec_jump hs hr (by simp [Request.wellFormed]; omega) rfl hline⟩

/-! ### The grant rule case by case (R56 to R61) -/

section
variable {s : State} (hsus : s.msc.mode.suspended = false) (hlock : s.aua.lock = none)
include hsus hlock

/-- A holder that is none or ineligible gives way to the choice among candidates (R57). -/
theorem State.grant_free (h : ∀ x, s.aua.holder = some x → s.eligible x = false) : s.grant = Grant.plain (s.best 0) := by
  unfold State.grant
  rw [hsus, hlock]
  cases hx : s.aua.holder with
  | none => rfl
  | some x => simp [h x hx]

theorem State.grant_active {h : Source} (hh : s.aua.holder = some h) (he : s.eligible h = true) (ha : s.active h = true) :
    (∀ x, s.best ((s.aua.entry h).priority + 1) = some x → s.grant = Grant.plain (some x)) ∧
    (s.best ((s.aua.entry h).priority + 1) = none → s.grant = Grant.plain (some h)) := by
  have hgrant : s.grant = s.grantActive h := by simp [State.grant, hsus, hlock, hh, he, ha]
  rw [hgrant, State.grantActive]
  exact ⟨fun x hx => by rw [hx], fun hx => by rw [hx]⟩

theorem State.grant_inactive {h : Source} (hh : s.aua.holder = some h) (he : s.eligible h = true)
    (ha : s.active h = false) :
    (∀ x, s.best (s.aua.entry h).priority = some x → s.grant = Grant.plain (some x)) ∧
    (s.best (s.aua.entry h).priority = none →
      s.grant = ⟨some h, true, if s.aua.inHoldOver then s.aua.count else s.aua.holdOverValue⟩) := by
  have hgrant : s.grant = s.grantInactive h := by simp [State.grant, hsus, hlock, hh, he, ha]
  rw [hgrant, State.grantInactive]
  exact ⟨fun x hx => by rw [hx], fun hx => by rw [hx]⟩

/-- An eligible active holder that no candidate tops keeps authority (R58). -/
theorem State.grant_keeps {h : Source} (hh : s.aua.holder = some h) (he : s.eligible h = true) (ha : s.active h = true)
    (htop : ∀ x, s.eligible x = true → s.active x = true → (s.aua.entry x).priority ≤ (s.aua.entry h).priority) :
    s.grant.holder = some h := by
  obtain ⟨-, hnone⟩ := State.grant_active hsus hlock hh he ha
  have hbest : s.best ((s.aua.entry h).priority + 1) = none := by
    by_contra hne
    obtain ⟨x, hx⟩ := Option.ne_none_iff_exists'.1 hne
    obtain ⟨hex, hax, hpx⟩ := State.candidate_eligible (State.best_some hx)
    have := htop x hex hax
    omega
  rw [hnone hbest]
  rfl

end

theorem Mode.suspended_eq_false {m : Mode} (h1 : m ≠ .setup) (h2 : m ≠ .loading) : m.suspended = false := by
  cases m <;> simp_all [Mode.suspended]

theorem State.consoleReady_mode {s : State} (h : s.consoleReady = true) : s.msc.mode ≠ .loading := by
  simp only [State.consoleReady, Bool.and_eq_true, decide_eq_true_eq] at h
  exact h.2

theorem sourceOfNumber?_number (src : Source) : sourceOfNumber? src.number = some src := by
  cases src with
  | hand n => fin_cases n <;> rfl
  | _ => rfl

theorem Source.number_lt (src : Source) : src.number < 256 := by
  cases src with
  | hand n => simp only [Source.number]; omega
  | _ => decide

theorem Source.number_ok (src : Source) : Request.wellFormed (.lock src.number) = true := by
  simp [Request.wellFormed, src.number_lt]

/-- LOCK outside SETUP and LOADING (R64). -/
theorem exec_lock {tag : Byte} {src : Source} {s : State} (hs : s.settled = true) (hr : s.consoleReady = true)
    (hmode : s.msc.mode ≠ .setup) : ∃ t, exec (.lock .console tag src.number) s = .next t ∧
      t.aua = { s.aua with lock := some src, holder := some src, inHoldOver := false, count := 0 } ∧
      t.cli = linkAfter s.cli (s.tallyNotices (some src)) ⟨tag, Mnem.lock.bytes, .ok (u8 src.number ++ u8 src.number)⟩ ∧
      (s.aua.holder = some src → t.wst = s.wst) ∧ (s.aua.holder ≠ some src → Published s t) ∧
      SameBut [.aua, .wst, .cli] s t := by
  have hgrant : (State.grant { s with aua := { s.aua with lock := some src } }) = Grant.plain (some src) :=
    State.grant_locked (Mode.suspended_eq_false hmode (State.consoleReady_mode hr)) rfl
  have haua : (s.setLock (some src)).aua =
      { s.aua with lock := some src, holder := some src, inHoldOver := false, count := 0 } := by
    rw [State.setLock, State.regrant_aua, hgrant]
    rfl
  have hdo : doLock src.number s = (s.setLock (some src), .ok (u8 src.number ++ u8 src.number)) := by
    simp only [doLock, sourceOfNumber?_number, haua]
    rfl
  obtain ⟨t, ht, hkept, ⟨-, hkeeps, hchanges⟩, -, -, hcli, hframe⟩ := exec_regrants (c := .lock .console tag src.number)
    (r := .lock src.number) hs hr rfl (instantsPast_of_ne (by simp)) src.number_ok (congrArg answered hdo)
    (by simp [sameBut_iff]) rfl
  have htaua := hkept.trans haua
  have hholder : t.aua.holder = some src := by rw [htaua]
  rw [hholder] at hkeeps hchanges hcli
  refine ⟨t, ht, htaua, hcli, fun h => hkeeps h.symm, fun h => hchanges (Ne.symm h), ?_⟩
  have hwritten : SameBut [.aua] s { s with aua := { s.aua with lock := some src } } := by simp [sameBut_iff]
  exact (hwritten.mono (by simp)).trans hframe

/-- Settles O22. -/
theorem lockAndFree : Obligations.LockAndFree := by
  refine ⟨fun tag n src s hs hr hmode hn => hn ▸ exec_lock hs hr hmode, ?_⟩
  intro tag s hs hr
  obtain ⟨t, ht, haua, hregranted, hauth, hre, hcli, hframe⟩ := exec_regrants (c := .free .console tag) (r := .free)
    (u := { s with aua := { s.aua with lock := none } }) hs hr rfl (instantsPast_of_ne (by simp)) rfl rfl
    (by simp [sameBut_iff]) rfl
  have hwritten : SameBut [.aua] s { s with aua := { s.aua with lock := none } } := by simp [sameBut_iff]
  refine ⟨t, ht, ?_, hauth, hregranted, hre, ?_, fun h hmode hh he ha htop => ?_, (hwritten.mono (by simp)).trans hframe⟩
  · rw [GrantOnly, haua, State.regrant_aua]
  · rw [hcli, haua]
    rfl
  · rw [haua, State.regrant_aua]
    exact State.grant_keeps (s := { s with aua := { s.aua with lock := none } })
      (Mode.suspended_eq_false hmode (State.consoleReady_mode hr)) rfl hh he ha htop

/-! ### Source entries and the threshold (R66, R67) -/

theorem Arbiter.entry_setEntry (a : Arbiter) (x src : Source) (e : SourceEntry) :
    (a.setEntry src e).entry x = if x = src then e else a.entry x := by
  cases src with
  | hand n =>
    cases x with
    | hand m => simp only [Arbiter.setEntry, Arbiter.entry, Four.get_set, Source.hand.injEq]
    | _ => simp [Arbiter.setEntry, Arbiter.entry]
  | _ => cases x <;> simp [Arbiter.setEntry, Arbiter.entry]

theorem Arbiter.setEntry_kept (a : Arbiter) (src : Source) (e : SourceEntry) :
    (a.setEntry src e).lock = a.lock ∧ (a.setEntry src e).threshold = a.threshold ∧
    (a.setEntry src e).holdOverValue = a.holdOverValue ∧ (a.setEntry src e).holder = a.holder ∧
    (a.setEntry src e).inHoldOver = a.inHoldOver ∧ (a.setEntry src e).count = a.count := by
  cases src <;> exact ⟨rfl, rfl, rfl, rfl, rfl, rfl⟩

theorem Arbiter.entry_of_grant (a : Arbiter) (h : Option Source) (b : Bool) (n : Nat) (x : Source) :
    Arbiter.entry { a with holder := h, inHoldOver := b, count := n } x = a.entry x := by
  cases x <;> rfl

/-- Settles O23. -/
theorem sourceAndThresholdWrites : Obligations.SourceAndThresholdWrites := by
  rintro tag n v src on s hs hr rfl hv
  refine ⟨?_, ?_⟩
  · obtain ⟨hlock, hthreshold, hvalue, hholder, hover, hcount⟩ := s.aua.setEntry_kept src ⟨on, min v 15⟩
    have hdo : doSrcs src.number on v s = (s.setSource src ⟨on, min v 15⟩,
        .ok (flag on ++ u8 (min v 15) ++ u8 (holderCode (s.setSource src ⟨on, min v 15⟩).aua.holder))) := by
      simp only [doSrcs, sourceOfNumber?_number]
    obtain ⟨t, ht, haua, hregranted, -, hre, hcli, hframe⟩ := exec_regrants (c := .srcs .console tag src.number on v)
      (r := .srcs src.number on v) hs hr rfl (instantsPast_of_ne (by simp))
      (by simp [Request.wellFormed, src.number_lt, hv]) (congrArg answered hdo) (by simp [sameBut_iff])
      (by rw [← hholder, ← hover, ← hcount])
    have hwritten : SameBut [.aua] s { s with aua := s.aua.setEntry src ⟨on, min v 15⟩ } := by simp [sameBut_iff]
    have hentry (x : Source) : t.aua.entry x = if x = src then ⟨on, min v 15⟩ else s.aua.entry x := by
      rw [haua, State.regrant_aua, Arbiter.entry_of_grant, Arbiter.entry_setEntry]
    refine ⟨t, ht, by rw [hentry, if_pos rfl], fun x hx => by rw [hentry, if_neg hx], ?_, ?_, ?_, hregranted, hre, ?_,
      (hwritten.mono (by simp)).trans hframe⟩
    · rw [haua, State.regrant_aua]
      exact hlock
    · rw [haua, State.regrant_aua]
      exact hthreshold
    · rw [haua, State.regrant_aua]
      exact hvalue
    · rw [hcli, haua]
      rfl
  · obtain ⟨t, ht, haua, hregranted, -, hre, hcli, hframe⟩ := exec_regrants (c := .thrs .console tag v) (r := .thrs v)
      (u := { s with aua := { s.aua with threshold := min v 15 } }) hs hr rfl (instantsPast_of_ne (by simp))
      (by simp [Request.wellFormed, hv]) rfl (by simp [sameBut_iff]) rfl
    have hwritten : SameBut [.aua] s { s with aua := { s.aua with threshold := min v 15 } } := by simp [sameBut_iff]
    refine ⟨t, ht, ?_, fun x => ?_, hregranted, hre, ?_, (hwritten.mono (by simp)).trans hframe⟩
    · rw [GrantOnly, haua, State.regrant_aua]
    · rw [haua, State.regrant_aua, Arbiter.entry_of_grant]
      cases x <;> rfl
    · rw [hcli, haua]
      rfl


/-! ### The choice among candidates and the arbiter's tick (R53 to R62) -/

theorem State.best_rank {s : State} {floor : Nat} {b : Source} (h : s.best floor = some b) (src : Source)
    (hc : s.candidate floor src = true) : (s.aua.entry src).priority < (s.aua.entry b).priority ∨
      ((s.aua.entry src).priority = (s.aua.entry b).priority ∧ b.number ≤ src.number) := by
  have hbest := s.best_bestOf floor
  rw [h] at hbest
  exact hbest.2.2 src (mem_allSources src) hc

theorem State.eligible_iff (s : State) (src : Source) :
    s.eligible src = true ↔ (s.aua.entry src).enable = true ∧ s.aua.threshold ≤ (s.aua.entry src).priority ∧
      ∀ n, src = .hand n → (s.port n).state = .live ∨ (s.msc.mode = .diagnostic ∧ (s.port n).driven = true) := by
  cases src <;> simp [State.eligible, State.portCounts, and_assoc]

theorem State.active_iff (s : State) (src : Source) :
    s.active src = true ↔ (src = .console ∧ s.sce.manualSpeed ≠ 0) ∨
      (∃ n, src = .hand n ∧ ((s.port n).latch.demand ≠ 0 ∨ (s.port n).latch.claim = true)) ∨
      (src = .auto ∧ s.tbp.autoMode ≠ .off) := by
  cases src <;> simp [State.active]

/-- The tick at which hold-over expires (R60). -/
theorem exec_holdOver_expires {s : State} (hs : s.settled = true) (hover : s.aua.inHoldOver = true)
    (hcount : s.aua.count ≤ 1) : ∃ t, exec .arbiterTick s = .next t ∧ exec .holdOverExpiry s = .next t ∧
      t.aua = { s.aua with holder := s.best 0, inHoldOver := false, count := 0 } ∧
      t.due = { s.due with arbiter := s.due.arbiter - 1 } ∧ Regranted s t ∧
      t.cli = s.cli.tabled (s.tallyNotices (s.best 0)) ∧ SameBut [.aua, .due, .wst, .cli] s t := by
  have htick : s.arbiterTickTaken.holdOverTick = s.arbiterTickTaken.takeGrant (Grant.plain (s.best 0)) :=
    if_pos (show s.arbiterTickTaken.aua.count ≤ 1 from hcount)
  have htaken : SameBut [.due] s s.arbiterTickTaken := by simp [sameBut_iff, State.arbiterTickTaken]
  have hauth (h : s.authorityOk = true) : s.arbiterTickTaken.holdOverTick.authorityOk = true :=
    State.holdOverTick_authority (s := s.arbiterTickTaken) (dependsOn_authorityOk.keep (by decide) htaken h) hover
  rw [htick] at hauth
  have hnext1 : exec .arbiterTick s = .next (s.arbiterTickTaken.takeGrant (Grant.plain (s.best 0))).settle := by
    rw [← htick]
    exact if_pos hover
  have hnext2 : exec .holdOverExpiry s = .next (s.arbiterTickTaken.takeGrant (Grant.plain (s.best 0))).settle := by
    rw [← htick]
    exact if_pos ⟨hover, hcount⟩
  have haua : (s.arbiterTickTaken.takeGrant (Grant.plain (s.best 0))).aua =
      { s.aua with holder := s.best 0, inHoldOver := false, count := 0 } := State.takeGrant_aua _ _
  refine ⟨_, hnext1, hnext2, haua, ?_, ⟨fun h => ?_, fun h => ?_, fun h => ?_⟩, ?_, ?_⟩
  · rw [State.settle_due]
    simp [State.arbiterTickTaken]
  · exact dependsOn_authorityOk.keep (by decide) (State.settle_sameBut _) (hauth h)
  · rw [State.settle_aua, haua] at h
    exact State.takeGrant_keeps (s := s.arbiterTickTaken) h
  · rw [State.settle_aua, haua] at h
    exact (State.takeGrant_published (s := s.arbiterTickTaken) h).of_same rfl rfl rfl
  · rw [State.settle_cli, State.takeGrant_cli]
    rfl
  · refine SameBut.settled_console hs ?_ (by simp)
    simp [sameBut_iff, State.arbiterTickTaken]

/-- Settles O24: the choice, the conditions, the cases of the grant rule, and the tick. -/
theorem holdOverCountsDown : Obligations.HoldOverCountsDown := by
  refine ⟨fun s floor => ⟨fun h => State.best_none h, fun b h => ⟨State.best_some h, State.best_rank h⟩, fun src => ?_⟩,
    fun s src => ⟨s.eligible_iff src, s.active_iff src⟩, fun s => ⟨fun h => ?_, fun h1 h2 => ?_⟩, fun s hs => ⟨?_, ?_, ?_⟩⟩
  · simp [State.candidate, and_assoc]
  · have hsus : s.msc.mode.suspended = true := by rcases h with h | h <;> rw [h] <;> rfl
    rw [State.regrant_aua, State.grant_suspended hsus]
    rfl
  · have hsus := Mode.suspended_eq_false h1 h2
    refine ⟨fun l hl => ?_, fun hl hfree => ?_, fun h hl hh he ha => ⟨fun x hx => ?_, fun hx => ?_⟩,
      fun h hl hh he ha => ⟨fun x hx => ?_, fun hx => ?_⟩⟩
    · rw [State.regrant_aua, State.grant_locked hsus hl]
      rfl
    · rw [State.regrant_aua, State.grant_free hsus hl hfree]
      rfl
    · rw [State.regrant_aua, (State.grant_active hsus hl hh he ha).1 x hx]
      rfl
    · rw [State.regrant_aua, (State.grant_active hsus hl hh he ha).2 hx]
      rfl
    · rw [State.regrant_aua, (State.grant_inactive hsus hl hh he ha).1 x hx]
      rfl
    · rw [State.regrant_aua, (State.grant_inactive hsus hl hh he ha).2 hx, ← hh]
  · intro hover
    have hnext : exec .arbiterTick s = finish s.arbiterTickTaken := if_neg (by simp [hover])
    exact ⟨_, hnext.trans (finish_of_links hs rfl rfl), rfl, by simp [sameBut_iff, State.arbiterTickTaken]⟩
  · intro hover hcount
    have hnext : exec .arbiterTick s = finish s.arbiterTickTaken.holdOverTick := if_pos hover
    have htick : s.arbiterTickTaken.holdOverTick =
        { s.arbiterTickTaken with aua := { s.aua with count := s.aua.count - 1 } } :=
      if_neg (show ¬s.arbiterTickTaken.aua.count ≤ 1 from not_le.2 hcount)
    rw [htick] at hnext
    exact ⟨_, hnext.trans (finish_of_links hs rfl rfl), rfl, rfl, by simp [sameBut_iff, State.arbiterTickTaken]⟩
  · exact fun hover hcount => exec_holdOver_expires hs hover hcount

/-! ### The auto mode and the target of a step (R28, R115 to R117) -/

theorem autoModeOfCode?_code (m : AutoMode) : autoModeOfCode? m.code = some m := by cases m <;> rfl

theorem State.setConstant?_eq (s : State) (c : Option Nat) : s.setConstant? c =
    { s with tbp := { s.tbp with constant := (c.map (min · 16384)).getD s.tbp.constant } } := by
  cases c <;> rfl

theorem amod_wellFormed {m : AutoMode} {c : Option Nat} (hc : ∀ v, c = some v → v < 65536) :
    (Request.amod m.code c).wellFormed = true := by
  have hm : m.code < 256 := by cases m <;> decide
  have hfits : optFits fits16 c = true := by
    cases c with
    | none => rfl
    | some v => simpa [optFits, fits16] using hc v rfl
  simp [Request.wellFormed, hm, hfits]

/-- AMOD writes mode and constant value, and has the grant re-evaluated where AUTO's activity changed (R55, R115). -/
theorem exec_amod {tag : Byte} {m : AutoMode} {c : Option Nat} {s : State} (hs : s.settled = true)
    (hr : s.consoleReady = true) (hc : ∀ v, c = some v → v < 65536) :
    ∃ t, exec (.amod .console tag m.code c) s = .next t ∧
      t.tbp = { s.tbp with autoMode := m, constant := (c.map (min · 16384)).getD s.tbp.constant } ∧
      t.cli = linkAfter s.cli (s.tallyNotices t.aua.holder)
        ⟨tag, Mnem.amod.bytes, .ok (u8 m.code ++ u16 t.tbp.constant)⟩ ∧
      GrantOnly s t ∧ Regranted s t ∧ SameBut [.tbp, .aua, .wst, .cli] s t ∧
      ((m = .off ↔ s.tbp.autoMode = .off) → SameBut [.tbp, .cli] s t) ∧
      (¬(m = .off ↔ s.tbp.autoMode = .off) → Reevaluated s t) := by
  generalize hk : (c.map (min · 16384)).getD s.tbp.constant = k
  have hconstant := s.setConstant?_eq c
  rw [hk] at hconstant
  have hwf := amod_wellFormed (m := m) hc
  have hwritten : SameBut [.tbp] s { s with tbp := { s.tbp with autoMode := m, constant := k } } := by simp [sameBut_iff]
  by_cases hsame : m = .off ↔ s.tbp.autoMode = .off
  · have hdo : doAmod m.code c s =
        ({ s with tbp := { s.tbp with autoMode := m, constant := k } }, .ok (u8 m.code ++ u16 k)) := by
      simp only [doAmod, autoModeOfCode?_code, hconstant, State.setAutoMode, if_pos hsame]
    have hnext := exec_console_plain (c := .amod .console tag m.code c) (r := .amod m.code c) hs hr rfl
      (instantsPast_of_ne (by simp)) hwf (congrArg answered hdo) rfl rfl
    have hauth (h : s.authorityOk = true) := doAmod_authority h m.code c
    rw [hdo] at hauth
    refine ⟨_, hnext, rfl, ?_, rfl, ⟨hauth, fun _ => rfl, fun h => absurd rfl h⟩, ?_, fun _ => ?_, fun h => absurd hsame h⟩
    · simp only [State.tallyNotices, if_true]
      rfl
    · simp [sameBut_iff]
    · simp [sameBut_iff]
  · have hdo : doAmod m.code c s =
        (State.regrant { s with tbp := { s.tbp with autoMode := m, constant := k } }, .ok (u8 m.code ++ u16 k)) := by
      simp only [doAmod, autoModeOfCode?_code, hconstant, State.setAutoMode, if_neg hsame, State.regrant_frame]
    obtain ⟨t, ht, haua, hregranted, -, hre, hcli, hframe⟩ := exec_regrants (c := .amod .console tag m.code c)
      (r := .amod m.code c) hs hr rfl (instantsPast_of_ne (by simp)) hwf (congrArg answered hdo) (by simp [sameBut_iff]) rfl
    have htbp : t.tbp = { s.tbp with autoMode := m, constant := k } := hframe .tbp (by decide)
    refine ⟨t, ht, htbp, by rw [hcli, htbp]; rfl, ?_, hregranted, (hwritten.mono (by simp)).trans (hframe.mono (by simp)),
      fun h => absurd h hsame, fun _ => hre⟩
    rw [GrantOnly, haua, State.regrant_aua]

/-- The target under each holder, outside SETUP and LOADING (R28). -/
theorem State.target_eq {s : State} (hsus : s.msc.mode.suspended = false) (p : Nat) :
    (s.aua.holder = some .console → s.target p = s.sce.manualSpeed) ∧
    (∀ n, s.aua.holder = some (.hand n) → s.target p = s.handTarget n) ∧
    (s.aua.holder = some .auto → s.target p = s.autoDemand p) := by
  refine ⟨fun h => ?_, fun n h => ?_, fun h => ?_⟩ <;> simp [State.target, hsus, h]

theorem State.handTarget_eq (s : State) (n : Fin 4) : s.handTarget n =
    if (s.port n).state = .live ∨ (s.msc.mode = .diagnostic ∧ (s.port n).driven = true) then
      (s.port n).latch.demand else 0 := by
  simp [State.handTarget, State.portCounts]

/-- The paced demand of a story (R117). -/
theorem State.autoDemand_pace {s : State} {n : Nat} {story : Story} (hmode : s.tbp.autoMode = .pace)
    (hcurrent : s.sce.currentStory = some n) (hstory : s.scs.story? n = some story) (p : Nat) :
    (story.target = none → s.autoDemand p = s.tbp.constant) ∧
    ∀ target last o : Nat, story.target = some target → story.lines.getLast? = some last →
      s.scs.ordinal? last = some o → s.autoDemand p =
        pacedDemand s.tbp.paceMin s.tbp.paceMax ((o + 1) * 4096 - p) ((target : Int) - s.tbp.clock) := by
  refine ⟨fun ht => ?_, fun target last o ht hlast hord => ?_⟩
  · simp [State.autoDemand, hmode, hcurrent, hstory, ht]
  · simp [State.autoDemand, hmode, hcurrent, hstory, ht, State.storyDemand, Store.storyEnd?, hlast, hord, topOf,
      Config.unitsPerLine]

/-- The paced demand: the maximum with no time left, else the quotient rounded up and held within the limits (R117). -/
theorem pacedDemand_spec {lo hi : Nat} (r : Nat) (f : Int) (hle : lo ≤ hi) :
    (f ≤ 0 → pacedDemand lo hi r f = hi) ∧
    (0 < f → lo ≤ pacedDemand lo hi r f ∧ pacedDemand lo hi r f ≤ hi ∧
      (pacedDemand lo hi r f < hi → (r : Int) ≤ pacedDemand lo hi r f * f) ∧
      ∀ q : Nat, (r : Int) ≤ q * f → pacedDemand lo hi r f ≤ max lo q) := by
  refine ⟨fun hf => if_pos hf, fun hf => ?_⟩
  obtain ⟨n, rfl⟩ : ∃ n : Nat, f = n := ⟨f.toNat, by omega⟩
  have hn : 0 < n := by omega
  have hdemand : pacedDemand lo hi r n = min (max ((r + n - 1) / n) lo) hi := by
    rw [pacedDemand, if_neg (by omega), Int.toNat_natCast]
  have hup : r ≤ (r + n - 1) / n * n := by
    have hlt := Nat.lt_div_mul_add (a := r + n - 1) hn
    omega
  rw [hdemand]
  refine ⟨by omega, by omega, fun hlt => ?_, fun q hq => ?_⟩
  · have hquot : (r + n - 1) / n ≤ min (max ((r + n - 1) / n) lo) hi := by omega
    exact_mod_cast hup.trans (Nat.mul_le_mul_right n hquot)
  · have hq' : r ≤ q * n := by exact_mod_cast hq
    have hquot : (r + n - 1) / n ≤ q := by
      rw [← Nat.lt_succ_iff, Nat.div_lt_iff_lt_mul hn, Nat.succ_mul]
      omega
    omega

/-- Settles O34. -/
theorem autoModeAndPacedDemand : Obligations.AutoModeAndPacedDemand := by
  refine ⟨fun tag m c s hs hr hc => exec_amod hs hr hc, fun p s => ⟨fun h => ?_, fun h1 h2 => ?_⟩,
    fun lo hi r f hle => pacedDemand_spec r f hle⟩
  · rcases h with h | h | h
    · simp [State.target, h, Mode.suspended]
    · simp [State.target, h, Mode.suspended]
    · exact State.target_inactive (fun x hx => by simp [h] at hx) p
  · obtain ⟨hconsole, hhand, hauto⟩ := State.target_eq (Mode.suspended_eq_false h1 h2) p
    refine ⟨hconsole, fun n hn => (hhand n hn).trans (s.handTarget_eq n), fun h hm => ?_, fun h hm => ?_,
      fun n story h hm hcurrent hstory => ?_⟩
    · simp [hauto h, State.autoDemand, hm]
    · simp [hauto h, State.autoDemand, hm]
    · obtain ⟨hnone, hpaced⟩ := State.autoDemand_pace hm hcurrent hstory p
      rw [hauto h]
      exact ⟨fun ht => congrArg _ (hnone ht), fun target last o ht hlast hord => congrArg _ (hpaced target last o ht hlast hord)⟩


end Sys2Proof.Machine

/-! PROOFS. The hand ports: a port that takes a new value (R55, R77, R82), the words of a frame (R70 to R76), the valid frame
(R77, R79, R83, R84), the port's tick (R78), and the shaper's requests (R99 to R102). -/

namespace Sys2Proof.Machine

/-! ### A port takes a new value (R55, R77, R82) -/

/-- The state whose port is replaced: PORT_STATE raised where the port's state changes (R82). -/
def State.portTold (s : State) (n : Fin 4) (p : HandPort) : State :=
  if p.state = (s.port n).state then s else s.raise .portState (.port n p.state)

@[simp] theorem State.portTold_frame (s : State) (n : Fin 4) (p : HandPort) :
    (s.portTold n p).msc = s.msc ∧ (s.portTold n p).scs = s.scs ∧ (s.portTold n p).ede = s.ede ∧
    (s.portTold n p).ports = s.ports ∧ (s.portTold n p).dsh = s.dsh ∧ (s.portTold n p).aua = s.aua ∧
    (s.portTold n p).sce = s.sce ∧ (s.portTold n p).tbp = s.tbp ∧ (s.portTold n p).wst = s.wst ∧
    (s.portTold n p).loa = s.loa ∧ (s.portTold n p).lob = s.lob ∧ (s.portTold n p).rli = s.rli ∧
    (s.portTold n p).due = s.due ∧ (s.portTold n p).mem = s.mem ∧ (s.portTold n p).pending = s.pending := by
  unfold State.portTold; split <;> simp

theorem State.portTold_cli (s : State) (n : Fin 4) (p : HandPort) : (s.portTold n p).cli = { s.cli with
    notices := if p.state = (s.port n).state then s.cli.notices
      else raiseIn s.cli.notices .portState (.port n p.state) } := by
  unfold State.portTold; split <;> rfl

theorem State.takePort_eq (s : State) (n : Fin 4) (p : HandPort) : s.takePort n p =
    if p.inputs = (s.port n).inputs then (s.portTold n p).setPort n p else ((s.portTold n p).setPort n p).regrant := by
  have hport : (s.portTold n p).port n = s.port n := by simp [State.port]
  rw [← hport]
  rfl

/-- What a port's new value makes of ports, arbiter, stager and console table. -/
theorem State.takePort_took (s : State) (n : Fin 4) (p : HandPort) :
    PortTook n p s (s.takePort n p).settle ∧
      (s.takePort n p).cli = { s.cli with notices := portNotices n p s (s.takePort n p) } := by
  have hports : (s.takePort n p).ports = s.ports.set n p := by
    rw [State.takePort_eq]
    split <;> simp [State.setPort]
  have hat : (s.takePort n p).settle.port n = p := by simp [State.port, hports]
  have hother (m : Fin 4) (hm : m ≠ n) : (s.takePort n p).settle.port m = s.port m := by
    simp [State.port, hports, Four.get_set_other _ _ hm]
  have hauth (h : s.authorityOk = true) : (s.takePort n p).settle.authorityOk = true :=
    dependsOn_authorityOk.keep (by decide) (State.settle_sameBut _) (State.takePort_authority h n p)
  by_cases hin : p.inputs = (s.port n).inputs
  · have heq : s.takePort n p = (s.portTold n p).setPort n p := by rw [State.takePort_eq, if_pos hin]
    have haua : (s.takePort n p).aua = s.aua := by rw [heq]; simp
    have hwst : (s.takePort n p).wst = s.wst := by rw [heq]; simp
    refine ⟨⟨hat, hother, ?_, ⟨hauth, fun _ => hwst, fun h => absurd (congrArg Arbiter.holder haua) h⟩, fun _ => haua,
      fun h => absurd hin h⟩, ?_⟩
    · rw [GrantOnly, State.settle_aua, haua]
    · rw [portNotices, haua, if_pos rfl, heq]
      exact s.portTold_cli n p
  · have heq : s.takePort n p = ((s.portTold n p).setPort n p).regrant := by rw [State.takePort_eq, if_neg hin]
    have haua : ((s.portTold n p).setPort n p).aua = s.aua := by simp
    obtain ⟨honly, -⟩ := ((s.portTold n p).setPort n p).regrant_published
    obtain ⟨hregranted, -⟩ := State.regrant_regranted (s := s) (u := (s.portTold n p).setPort n p) (by simp) (by simp)
      (State.settle_sameBut _)
    rw [heq] at hat hother ⊢
    refine ⟨⟨hat, hother, ?_, hregranted, fun h => absurd h hin, fun _ => ?_⟩, ?_⟩
    · rw [GrantOnly, haua] at honly
      exact honly
    · exact State.regrant_reevaluated (u := (s.portTold n p).setPort n p) rfl (by simp) (by simp) (by simp) (by simp)
        (by rw [haua])
    · have hcli : ((s.portTold n p).setPort n p).cli = (s.portTold n p).cli := by simp [State.setPort]
      rw [portNotices, State.regrant_aua, State.regrant_cli, hcli, State.portTold_cli]
      simp only [State.tallyNotices, haua, hcli, State.portTold_cli]

/-- An event in which one port takes a new value. -/
theorem finish_takePort {s : State} (hs : s.settled = true) (n : Fin 4) (p : HandPort) :
    ∃ t, finish (s.takePort n p) = .next t ∧ PortTook n p s t ∧ t.cli = s.cli.tabled (portNotices n p s t) ∧
      SameBut [.ports, .aua, .wst, .cli] s t := by
  obtain ⟨htook, hcli⟩ := s.takePort_took n p
  refine ⟨_, rfl, htook, congrArg LinkIface.pump hcli, SameBut.settled_console hs ?_ (by simp)⟩
  simp [sameBut_iff]

/-! ### The words of a frame (R70 to R76) -/

theorem HandPort.enabled_iff (p : HandPort) : p.enabled = true ↔ p.state ≠ .disabled := by
  simp [HandPort.enabled]

/-- A word that completes no valid frame. -/
theorem exec_handWord_none {n : Fin 4} {w : HandBits} {q : HandPort} {s : State} (hs : s.settled = true)
    (hline : s.msc.resetLine = false) (hstate : (s.port n).state ≠ .disabled) (hword : (s.port n).takeWord w = (q, none)) :
    ∃ t, exec (.handWord n w) s = .next t ∧ PortTook n q s t ∧ t.cli = s.cli.tabled (portNotices n q s t) ∧
      SameBut [.ports, .aua, .wst, .cli] s t := by
  have hnext : exec (.handWord n w) s = finish (s.takePort n q) := by
    simp only [exec, execHandWord, hline, ((s.port n).enabled_iff).2 hstate, hword]
    rfl
  rw [hnext]
  exact finish_takePort hs n q

/-- A word that completes a valid frame. -/
theorem exec_handWord_some {n : Fin 4} {w : HandBits} {q : HandPort} {f : HandFrame} {s : State} (hs : s.settled = true)
    (hline : s.msc.resetLine = false) (hstate : (s.port n).state ≠ .disabled)
    (hword : (s.port n).takeWord w = (q, some f)) :
    ∃ t, exec (.handWord n w) s = .next t ∧ PortTook n (q.validFrame s.msc.mode (s.dsh.get n) f) s t ∧
      t.cli = s.cli.tabled (portNotices n (q.validFrame s.msc.mode (s.dsh.get n) f) s t) ∧
      SameBut [.ports, .aua, .wst, .cli] s t := by
  have hnext : exec (.handWord n w) s = finish (s.takePort n (q.validFrame s.msc.mode (s.dsh.get n) f)) := by
    simp only [exec, execHandWord, hline, ((s.port n).enabled_iff).2 hstate, hword]
    rfl
  rw [hnext]
  exact finish_takePort hs n _

theorem HandPort.takeWord_parity {p : HandPort} {w : HandBits} (h : wordGood w = false) : p.takeWord w = ({ p with
    assembler := .hunt, counters := { p.counters with parity := min (p.counters.parity + 1) 65535 } }.afterBadFrame,
    none) := by
  rw [HandPort.takeWord, if_neg (by simp [h]), HandPort.parityError, HandPort.badFrame_eq]
  rfl

section
variable {p : HandPort} {w : HandBits} (hgood : wordGood w = true)
include hgood

theorem HandPort.takeWord_abort (h : w.getLsbD 17 = true) : p.takeWord w = ({ p with
    assembler := .idle, counters := { p.counters with aborted := min (p.counters.aborted + 1) 65535 } }, none) := by
  rw [HandPort.takeWord, if_pos hgood, if_pos (show wordAbort w = true from h)]
  rfl

variable (habort : w.getLsbD 17 = false)
include habort

theorem HandPort.takeWord_first (h : w.getLsbD 19 = true) : p.takeWord w = (p.firstWord w, none) := by
  rw [HandPort.takeWord, if_pos hgood, if_neg (show ¬wordAbort w = true from Bool.eq_false_iff.1 habort),
    if_pos (show wordFirst w = true from h)]

theorem HandPort.takeWord_later (h : w.getLsbD 19 = false) : p.takeWord w = p.laterWord w := by
  rw [HandPort.takeWord, if_pos hgood, if_neg (show ¬wordAbort w = true from Bool.eq_false_iff.1 habort),
    if_neg (show ¬wordFirst w = true from Bool.eq_false_iff.1 h)]

end

/-- The data bits that name a frame's kind and number, and its deflection (R184). -/
theorem wordData_fields (w : HandBits) : wordData w / 4096 = w.toNat / 8192 % 16 ∧
    wordData w % 64 = w.toNat / 2 % 64 ∧ wordData w % 4096 = w.toNat / 2 % 4096 := by
  unfold wordData
  omega

/-- A first word, cutting off an open frame where there is one (R74). -/
theorem HandPort.firstWord_eq {p p0 : HandPort} {w : HandBits}
    (hp0 : p0 = if p.assembler.isOpen then { p with
      counters := { p.counters with framing := min (p.counters.framing + 1) 65535 } }.afterBadFrame else p) :
    (w.getLsbD 18 = true → p.firstWord w = { p0 with
      assembler := .idle, counters := { p0.counters with length := min (p0.counters.length + 1) 65535 } }.afterBadFrame) ∧
    (w.getLsbD 18 = false → p.firstWord w =
      { p0 with assembler := .open1 (w.toNat / 8192 % 16) (w.toNat / 2 % 64) }) := by
  obtain ⟨hkind, hseq, -⟩ := wordData_fields w
  have hcut : (if p.assembler.isOpen then p.framingError else p) = p0 := by
    rw [hp0, HandPort.framingError, HandPort.badFrame_eq]
    rfl
  refine ⟨fun h => ?_, fun h => ?_⟩
  · rw [HandPort.firstWord, hcut, if_pos (show wordLast w = true from h), HandPort.lengthError, HandPort.badFrame_eq]
    rfl
  · rw [HandPort.firstWord, hcut, if_neg (show ¬wordLast w = true from Bool.eq_false_iff.1 h), hkind, hseq]

theorem unitKindOfCode?_none {k : Nat} (h : k = 0 ∨ 3 < k) : unitKindOfCode? k = none := by
  rcases h with rfl | h
  · rfl
  · match k, h with
    | k + 4, _ => rfl

/-- A later word that completes no valid frame (R75). -/
theorem HandPort.laterWord_cases (p : HandPort) (w : HandBits) :
    (p.assembler = .idle → p.laterWord w = ({ p with
      counters := { p.counters with framing := min (p.counters.framing + 1) 65535 } }.afterBadFrame, none)) ∧
    (p.assembler = .hunt → p.laterWord w = (p, none)) ∧
    (∀ k seq, p.assembler = .open1 k seq →
      (w.getLsbD 18 = true → p.laterWord w = ({ p with
        assembler := .idle, counters := { p.counters with length := min (p.counters.length + 1) 65535 } }.afterBadFrame,
        none)) ∧
      (w.getLsbD 18 = false → p.laterWord w = ({ p with assembler := .open2 k seq (w.toNat / 2 % 4096) }, none))) ∧
    ∀ k seq d, p.assembler = .open2 k seq d →
      (w.getLsbD 18 = false → p.laterWord w = ({ p with
        assembler := .hunt, counters := { p.counters with length := min (p.counters.length + 1) 65535 } }.afterBadFrame,
        none)) ∧
      (w.getLsbD 18 = true → k = 0 ∨ 3 < k → p.laterWord w = ({ p with
        assembler := .idle, counters := { p.counters with kind := min (p.counters.kind + 1) 65535 } }.afterBadFrame,
        none)) := by
  obtain ⟨-, -, hdeflection⟩ := wordData_fields w
  refine ⟨fun h => ?_, fun h => ?_, fun k seq h => ⟨fun hl => ?_, fun hl => ?_⟩,
    fun k seq d h => ⟨fun hl => ?_, fun hl hk => ?_⟩⟩
  · simp only [HandPort.laterWord, h, HandPort.framingError, HandPort.badFrame_eq]
    rfl
  · simp only [HandPort.laterWord, h]
  · simp only [HandPort.laterWord, h, wordLast, hl, if_true, HandPort.lengthError, HandPort.badFrame_eq]
    rfl
  · simp only [HandPort.laterWord, h, wordLast, hl, Bool.false_eq_true, if_false, hdeflection]
  · simp only [HandPort.laterWord, h, wordLast, hl, Bool.false_eq_true, if_false, HandPort.lengthError,
      HandPort.badFrame_eq]
    rfl
  · simp only [HandPort.laterWord, h, wordLast, hl, if_true, HandPort.completeFrame, unitKindOfCode?_none hk,
      HandPort.kindError, HandPort.badFrame_eq]
    rfl

/-- Settles O25: each assembler state and flag by the equation of its word. -/
theorem handWordAssembly : Obligations.HandWordAssembly := by
  refine ⟨fun n w s hs h => ?_, ?_⟩
  · have hnext : exec (.handWord n w) s = finish s := by
      have hskip : (s.msc.resetLine || !(s.port n).enabled) = true := by
        rcases h with h | h <;> simp [h, HandPort.enabled]
      exact if_pos hskip
    rw [hnext]
    exact finish_settled hs
  · rintro n w p q s hs hline rfl hstate hcase
    have htaken : (s.port n).takeWord w = (q, none) := by
      obtain ⟨hidle, hhunt, hopen1, hopen2⟩ := (s.port n).laterWord_cases w
      rcases hcase with ⟨hbad, rfl⟩ | ⟨hgood, habort, rfl⟩ | ⟨hgood, habort, hfirst, p0, hp0, hlast⟩ |
        ⟨hgood, habort, hfirst, hlater⟩
      · exact HandPort.takeWord_parity hbad
      · exact HandPort.takeWord_abort hgood habort
      · rw [HandPort.takeWord_first hgood habort hfirst]
        obtain ⟨hshort, hopen⟩ := HandPort.firstWord_eq (w := w) hp0
        rcases hlast with ⟨hl, rfl⟩ | ⟨hl, rfl⟩
        · rw [hshort hl]
        · rw [hopen hl]
      · rw [HandPort.takeWord_later hgood habort hfirst]
        rcases hlater with ⟨h, rfl⟩ | ⟨h, rfl⟩ | ⟨k, seq, h, ⟨hl, rfl⟩ | ⟨hl, rfl⟩⟩ |
          ⟨k, seq, d, h, ⟨hl, rfl⟩ | ⟨hl, hk, rfl⟩⟩
        · exact hidle h
        · exact hhunt h
        · exact (hopen1 k seq h).1 hl
        · exact (hopen1 k seq h).2 hl
        · exact (hopen2 k seq d h).1 hl
        · exact (hopen2 k seq d h).2 hl hk
    exact exec_handWord_none hs hline hstate htaken

/-! ### The valid frame (R77, R79, R83, R84) -/

theorem unitKindOfCode?_code (k : UnitKind) : unitKindOfCode? k.code = some k := by cases k <;> rfl

/-- A button level is a data bit of word 3, and that a bit of the word (R184). -/
theorem wordData_testBit (w : HandBits) {i : Nat} (h : i < 16) : (wordData w).testBit i = w.getLsbD (i + 1) := by
  have hmod : wordData w = (w.toNat / 2) % 2 ^ 16 := rfl
  rw [hmod, Nat.testBit_mod_two_pow, decide_eq_true h, Bool.true_and, Nat.testBit_div_two, BitVec.getLsbD]

theorem buttonsOf_wordData (w : HandBits) : buttonsOf (wordData w) =
    ⟨⟨w.getLsbD 1, w.getLsbD 2, w.getLsbD 3, w.getLsbD 4⟩, w.getLsbD 5⟩ := by
  simp only [buttonsOf, wordData_testBit w (show 0 < 16 by omega), wordData_testBit w (show 1 < 16 by omega),
    wordData_testBit w (show 2 < 16 by omega), wordData_testBit w (show 3 < 16 by omega),
    wordData_testBit w (show 4 < 16 by omega)]

theorem seqGap_eq {seq e gap : Nat} (h : (gap : Int) = ((seq : Int) - e) % 64) : seqGap seq e = gap := by
  unfold seqGap
  omega

/-- What a frame adds to the missed counter (R79). -/
theorem HandPort.frameGap_eq {p : HandPort} {f : HandFrame} {gap : Nat}
    (h : ((p.state ≠ .live ∨ p.expected = none) ∧ gap = 0) ∨
      (p.state = .live ∧ ∃ e, p.expected = some e ∧ (gap : Int) = ((f.seq : Int) - e) % 64)) : p.frameGap f = gap := by
  unfold HandPort.frameGap
  rcases h with ⟨h, rfl⟩ | ⟨hlive, e, he, hgap⟩
  · split
    · next hs he => simp [hs, he] at h
    · rfl
  · simp only [hlive, he, seqGap_eq hgap]

theorem edgesOr_none (b : Edges) : edgesOr b Edges.none = b := by
  cases b
  simp [edgesOr, Edges.none]

/-- The button latches after a frame (R84). -/
theorem HandPort.frameEdges_eq {p : HandPort} {levels latched : Edges}
    (h : ((p.state ≠ .live ∨ p.record = none) ∧ latched = p.buttons) ∨
      (p.state = .live ∧ ∃ r, p.record = some r ∧ latched =
        ⟨p.buttons.holdToggle || (levels.holdToggle && !r.holdToggle), p.buttons.go || (levels.go && !r.go),
          p.buttons.next || (levels.next && !r.next), p.buttons.prev || (levels.prev && !r.prev)⟩)) :
    edgesOr p.buttons (pressEdges levels p.liveRecord) = latched := by
  rcases h with ⟨h, rfl⟩ | ⟨hlive, r, hr, rfl⟩
  · have hnone : p.liveRecord = none := by
      unfold HandPort.liveRecord
      split
      · next hlive => exact h.resolve_left (not_not_intro hlive)
      · rfl
    rw [hnone]
    exact edgesOr_none _
  · rw [HandPort.liveRecord, if_pos hlive, hr]
    rfl

/-- Settles O26. -/
theorem validFrameFillsLatch : Obligations.ValidFrameFillsLatch := by
  rintro n w k seq d gap levels latched p q s hs hline rfl hstate hopen hgood hfirst hlast habort hlevels hgap hlatched rfl
  have hword : (s.port n).takeWord w =
      ({ s.port n with assembler := .idle }, some ⟨k, seq, d, ⟨levels, w.getLsbD 5⟩⟩) := by
    rw [HandPort.takeWord_later hgood habort hfirst]
    simp only [HandPort.laterWord, hopen, wordLast, hlast, if_true, HandPort.completeFrame, unitKindOfCode?_code,
      buttonsOf_wordData, ← hlevels]
  have hframe := exec_handWord_some hs hline hstate hword
  have hmissed : HandPort.frameGap { s.port n with assembler := .idle } ⟨k, seq, d, ⟨levels, w.getLsbD 5⟩⟩ = gap :=
    HandPort.frameGap_eq hgap
  have hedges : edgesOr (s.port n).buttons
      (pressEdges levels (HandPort.liveRecord { s.port n with assembler := .idle })) = latched :=
    HandPort.frameEdges_eq (p := { s.port n with assembler := .idle }) hlatched
  have hvalid : HandPort.validFrame { s.port n with assembler := .idle } s.msc.mode (s.dsh.get n)
      ⟨k, seq, d, ⟨levels, w.getLsbD 5⟩⟩ = { s.port n with
        state := .live, assembler := .idle, badRun := 0, silence := 0, expected := some ((seq + 1) % 64),
        lastKind := some k, record := some levels,
        counters := { (s.port n).counters with
          valid := min ((s.port n).counters.valid + 1) 65535, missed := min ((s.port n).counters.missed + gap) 65535 },
        latch := if s.msc.mode = .diagnostic then (s.port n).latch
          else ⟨some d, shape (s.dsh.get n) k d, some k, w.getLsbD 5⟩,
        buttons := if s.msc.mode = .diagnostic then (s.port n).buttons else latched } := by
    unfold HandPort.validFrame
    split
    · simp only [HandPort.frameTaken, hmissed]
      rfl
    · simp only [HandPort.frameLatched, HandPort.frameTaken, hmissed, hedges]
      rfl
  rw [hvalid] at hframe
  exact hframe

/-! ### The port's tick (R78, R82) -/

theorem HandPort.tick_eq (p : HandPort) : p.tick =
    if p.state = .live then (if 4 ≤ p.silence then p.left .silent else { p with silence := p.silence + 1 }) else p := by
  have hmax : Config.silenceMax ≤ p.silence + 1 ↔ 4 ≤ p.silence := Nat.succ_le_succ_iff
  simp only [HandPort.tick, hmax]

/-- A tick that leaves what decides the port's source, and its state, as they stand. -/
theorem State.takePort_quiet {s : State} {n : Fin 4} {p : HandPort} (hstate : p.state = (s.port n).state)
    (hin : p.inputs = (s.port n).inputs) : s.takePort n p = s.setPort n p := by
  rw [State.takePort_eq, if_pos hin, State.portTold, if_pos hstate]

/-- Settles O27. -/
theorem portTickCountsSilence : Obligations.PortTickCountsSilence := by
  rintro n p due s hs rfl rfl
  have hport : (s.portTickTaken n).port n = s.port n := rfl
  refine ⟨fun hstate => ?_, fun hstate hcount => ?_, fun q hstate hcount hq => ?_⟩
  · have htick : (s.port n).tick = s.port n := by rw [HandPort.tick_eq, if_neg hstate]
    have hnext : exec (.portTick n) s = finish (s.portTickTaken n) := by
      show finish ((s.portTickTaken n).takePort n (s.port n).tick) = _
      have hquiet := State.takePort_quiet (s := s.portTickTaken n) (n := n) (p := s.port n) rfl rfl
      rw [htick, hquiet, ← hport, State.setPort, State.port, Four.set_get]
    exact ⟨_, hnext.trans (finish_of_links hs rfl rfl), rfl, by simp [sameBut_iff, State.portTickTaken]⟩
  · have htick : (s.port n).tick = { s.port n with silence := (s.port n).silence + 1 } := by
      rw [HandPort.tick_eq, if_pos hstate, if_neg (by omega)]
    have hnext : exec (.portTick n) s =
        finish ((s.portTickTaken n).setPort n { s.port n with silence := (s.port n).silence + 1 }) := by
      show finish ((s.portTickTaken n).takePort n (s.port n).tick) = _
      have hquiet := State.takePort_quiet (s := s.portTickTaken n) (n := n)
        (p := { s.port n with silence := (s.port n).silence + 1 }) rfl rfl
      rw [htick, hquiet]
    refine ⟨_, hnext.trans (finish_of_links hs rfl rfl), ?_, fun m hm => ?_, rfl, ?_⟩
    · simp
    · rw [State.setPort_port, if_neg hm]
      rfl
    · simp [sameBut_iff, State.portTickTaken, State.setPort]
  · have htick : (s.port n).tick = q := by
      rw [HandPort.tick_eq, if_pos hstate, if_pos hcount, hq]
      rfl
    have hnext1 : exec (.portTick n) s = finish ((s.portTickTaken n).takePort n q) := by
      rw [← htick]
      rfl
    have hnext2 : exec (.portSilenceExpiry n) s = finish ((s.portTickTaken n).takePort n q) := by
      rw [← htick]
      exact if_pos ⟨hstate, Nat.succ_le_succ hcount⟩
    obtain ⟨t, ht, htook, hcli, hframe⟩ := finish_takePort (s := s.portTickTaken n)
      ((State.settled_iff _).2 ((State.settled_iff s).1 hs)) n q
    have htaken : SameBut [.due] s (s.portTickTaken n) := by simp [sameBut_iff, State.portTickTaken]
    exact ⟨t, hnext1.trans ht, hnext2.trans ht, htook, hcli, hframe .due (by decide),
      (htaken.mono (by simp)).trans (hframe.mono (by simp))⟩


/-! ### The shaper's requests (R99 to R102) -/

theorem portOf?_val (n : Fin 4) : portOf? n.val = some n := by simp [portOf?]

theorem portNumber_lt (n : Fin 4) : n.val < 256 := by omega

theorem State.setShaping_sameBut (s : State) (n : Fin 4) (p : Shaping) : SameBut [.dsh] s (s.setShaping n p) := by
  simp [sameBut_iff, State.setShaping]

/-- A run of points written into a curve (R100). -/
theorem writePoints_getElem? {curve values : List Nat} {first : Nat} (h : first + values.length ≤ curve.length) (k : Nat) :
    (writePoints curve first values)[k]? =
      if first ≤ k ∧ k < first + values.length then values[k - first]? else curve[k]? := by
  have htake : (curve.take first).length = first := by simp; omega
  rw [writePoints, List.append_assoc]
  by_cases h1 : k < first
  · rw [List.getElem?_append_left (by omega), List.getElem?_take_of_lt h1, if_neg (by omega)]
  · rw [List.getElem?_append_right (by omega), htake]
    by_cases h2 : k < first + values.length
    · rw [List.getElem?_append_left (by omega), if_pos (by omega)]
    · rw [List.getElem?_append_right (by omega), List.getElem?_drop, if_neg (by omega)]
      congr 1
      omega

/-- Settles O29. -/
theorem shaperRequests : Obligations.ShaperRequests := by
  refine ⟨fun tag n first vs s hs hr => ⟨fun hmode hcurve hone hrun hvs => ?_, ?_⟩,
    fun tag n s hs hr => ⟨fun d hmode hd => ?_, fun hmode hd => ?_, fun hmode => ?_⟩⟩
  · have hok : runOk first vs.length = true := by simp [runOk]; omega
    have hdo : doCrvw n.val first vs s = (s.setShaping n { s.dsh.get n with
        curve := writePoints (s.dsh.get n).curve first (vs.map (min · 16384)) },
        .ok (u8 n.val ++ u8 first ++ listOf u16 (vs.map (min · 16384)))) := by
      simp only [doCrvw, portOf?_val, hok, Bool.not_true, Bool.false_eq_true, if_false, if_neg hmode]
      rfl
    have hwf : (Request.crvw n.val first vs).wellFormed = true := by
      have hfits : vs.all fits16 = true := by simpa [fits16] using hvs
      simp only [Request.wellFormed, fits8, fitsCount, hfits, Bool.and_true, Bool.and_eq_true, decide_eq_true_eq]
      exact ⟨⟨portNumber_lt n, by omega⟩, by omega⟩
    refine ⟨_, exec_console_plain (c := .crvw .console tag n.val first vs) (r := .crvw n.val first vs) hs hr rfl
      (instantsPast_of_ne (by simp)) hwf (congrArg answered hdo) rfl rfl, fun k => ?_, ?_, fun m hm => ?_, rfl, ?_⟩
    · simp [State.setShaping, writePoints_getElem? (values := vs.map (min · 16384)) (curve := (s.dsh.get n).curve)
        (first := first) (by simp [hcurve, hrun])]
    · simp [State.setShaping]
    · simp [State.setShaping, Four.get_set_other _ _ hm]
    · simp [sameBut_iff, State.setShaping]
  · have hdo : doCrvr n.val s =
        (s, .ok (u8 n.val ++ (List.range 33).flatMap fun k => u16 ((s.dsh.get n).curve.getD k 0))) := by
      simp only [doCrvr, portOf?_val]
      rfl
    exact exec_unchanged (c := .crvr .console tag n.val) (link := .console) hs hr rfl (instantsPast_of_ne (by simp)) (by simp)
      (by simpa [Request.wellFormed] using portNumber_lt n) (congrArg answered hdo)
  · have hdo : doCntr .console n.val s = (s.setShaping n { s.dsh.get n with centre := d }, .ok (u16 d)) := by
      simp only [doCntr, portOf?_val, if_neg hmode, hd]
    refine ⟨_, exec_console_plain (c := .cntr .console tag n.val) (r := .cntr n.val) hs hr rfl
      (instantsPast_of_ne (by simp)) (by simpa [Request.wellFormed] using portNumber_lt n) (congrArg answered hdo) rfl rfl,
      ?_, fun m hm => ?_, rfl, ?_⟩
    · simp [State.setShaping]
    · simp [State.setShaping, Four.get_set_other _ _ hm]
    · simp [sameBut_iff, State.setShaping]
  · have hdo : doCntr .console n.val s = refuse s .console .cntr .noSample n.val := by
      simp only [doCntr, portOf?_val, if_neg hmode, hd]
    obtain ⟨t, ht, hede, hcli, hframe⟩ := exec_refused (c := .cntr .console tag n.val) (link := .console)
      (r := .cntr n.val) hs hr rfl
      (instantsPast_of_ne (by simp)) (by simp) (by simpa [Request.wellFormed] using portNumber_lt n)
      (congrArg answered hdo)
    exact ⟨t, ht, hcli, hede, hframe⟩
  · have hdo : doCntr .console n.val s = (s, .notPermitted) := by
      simp only [doCntr, portOf?_val, if_pos hmode]
    exact exec_unchanged (c := .cntr .console tag n.val) (link := .console) hs hr rfl (instantsPast_of_ne (by simp)) (by simp)
      (by simpa [Request.wellFormed] using portNumber_lt n) (congrArg answered hdo)


end Sys2Proof.Machine

/-! PROOFS. The timebase, the stager and the line outputs: reference edges, generator and loss, show clock and cue timers,
stagings and packets. -/

namespace Sys2Proof.Machine

/-! ### The reference and the generator (R104 to R108) -/

/-- The timebase entering LOCKED or LOST, beside the notice it raises (R104). -/
theorem State.enterRef_raises {s : State} {r : RefState} (h : r ≠ .free) :
    s.enterRef r = { s with tbp := { s.tbp with state := r } }.raise .referenceState (.reference r) := if_neg h

/-- Settles O30. -/
theorem referenceEdgeTaken : Obligations.ReferenceEdgeTaken := by
  rintro instant now s hs hline rfl
  refine ⟨fun hfree => ?_, fun hlocked hglitch => ?_, fun hlocked htick => ?_, fun hlost => ?_⟩
  · have hnext : exec (.referenceEdge instant) s = finish (s.reach instant) := by
      show execReferenceEdge instant s = _
      simp only [execReferenceEdge, hline, hfree, Bool.false_eq_true, if_false]
    exact ⟨_, hnext.trans (finish_of_links hs rfl rfl), rfl, by simp [sameBut_iff, State.reach]⟩
  · have hnext : exec (.referenceEdge instant) s = finish (s.reach instant).lockedEdge := by
      show execReferenceEdge instant s = _
      simp only [execReferenceEdge, hline, hlocked, Bool.false_eq_true, if_false]
    rw [State.lockedEdge, if_pos (show 2 * ((s.reach instant).tbp.now - (s.reach instant).tbp.lastTick) <
      (s.reach instant).tbp.rate.period from hglitch)] at hnext
    exact ⟨_, hnext.trans (finish_of_links hs rfl rfl), rfl, by simp [sameBut_iff, State.reach]⟩
  · have hnext : exec (.referenceEdge instant) s = finish (s.reach instant).lockedEdge := by
      show execReferenceEdge instant s = _
      simp only [execReferenceEdge, hline, hlocked, Bool.false_eq_true, if_false]
    rw [State.lockedEdge, if_neg (show ¬ 2 * ((s.reach instant).tbp.now - (s.reach instant).tbp.lastTick) <
      (s.reach instant).tbp.rate.period from Nat.not_lt.2 htick)] at hnext
    exact ⟨_, hnext.trans (finish_of_links hs rfl rfl), by simp [State.reach], rfl, by simp [sameBut_iff, State.reach]⟩
  · have hnext : exec (.referenceEdge instant) s =
        finish (((s.reach instant).tickAt (max s.tbp.now instant)).enterRef .locked) := by
      show execReferenceEdge instant s = _
      simp only [execReferenceEdge, hline, hlost, Bool.false_eq_true, if_false]
      rfl
    rw [State.enterRef_raises (by decide)] at hnext
    have hframe : SameBut [.tbp, .due, .cli] s ({ (s.reach instant).tickAt (max s.tbp.now instant) with
        tbp := { ((s.reach instant).tickAt (max s.tbp.now instant)).tbp with state := .locked } }.raise .referenceState
        (.reference .locked)) := by
      simp [sameBut_iff, State.reach]
    refine ⟨_, hnext, ?_, rfl, rfl, hframe.settled_console hs (by simp)⟩
    simp [State.reach]

/-- Settles O31. -/
theorem generatorAndLossTick : Obligations.GeneratorAndLossTick := by
  intro s hs hline
  refine ⟨fun hstate => ?_, fun hlocked => ?_⟩
  · have hgen : s.tbp.generating = true := decide_eq_true hstate
    have hloss : exec .referenceLoss s = finish s := by
      show execReferenceLoss s = _
      simp only [execReferenceLoss, hgen, Bool.or_true, if_true]
    have hnext : exec .internalTick s = finish (s.tickAt s.tbp.nextTick) := by
      show execInternalTick s = _
      simp only [execInternalTick, hline, hgen, Bool.not_true, Bool.or_self, Bool.false_eq_true, if_false]
    exact ⟨hloss.trans (finish_settled hs), _, hnext.trans (finish_of_links hs rfl rfl), rfl, rfl, rfl,
      by simp [sameBut_iff]⟩
  · have hgen : s.tbp.generating = false := by simp [Timebase.generating, hlocked]
    have htick : exec .internalTick s = finish s := by
      show execInternalTick s = _
      simp only [execInternalTick, hgen, Bool.not_false, Bool.or_true, if_true]
    have hnext : exec .referenceLoss s = finish ((s.tickAt (s.tbp.lastTick + 3 * s.tbp.rate.period)).enterRef .lost) := by
      show execReferenceLoss s = _
      simp only [execReferenceLoss, hline, hgen, Bool.or_self, Bool.false_eq_true, if_false]
    rw [State.enterRef_raises (by decide)] at hnext
    refine ⟨htick.trans (finish_settled hs), _, hnext, rfl, rfl, ?_, rfl, rfl, SameBut.settled_console hs ?_ (by simp)⟩
    · rw [← hlocked]
      rfl
    · simp [sameBut_iff]

/-! ### The show clock and the cue timers (R111, R113) -/

/-- Settles O33. -/
theorem clockAndTimerRequests : Obligations.ClockAndTimerRequests := by
  intro tag v k s hs hr hv
  have hk : k.val < 256 := portNumber_lt k
  refine ⟨?_, ?_, ?_, ?_, ?_⟩
  · exact ⟨_, exec_console_plain (c := .clkc .console tag 0 none) (r := .clkc 0 none) hs hr rfl
      (instantsPast_of_ne (by simp)) rfl rfl rfl rfl, rfl, rfl, by simp [sameBut_iff, doClkc]⟩
  · exact ⟨_, exec_console_plain (c := .clkc .console tag 1 none) (r := .clkc 1 none) hs hr rfl
      (instantsPast_of_ne (by simp)) rfl rfl rfl rfl, rfl, rfl, by simp [sameBut_iff, doClkc]⟩
  · exact ⟨_, exec_console_plain (c := .clkc .console tag 2 (some v)) (r := .clkc 2 (some v)) hs hr rfl
      (instantsPast_of_ne (by simp)) (by simpa [Request.wellFormed, optFits, fits32] using hv) rfl rfl rfl, rfl, rfl,
      by simp [sameBut_iff, doClkc]⟩
  · have hdo : doCuea k.val v s = (s.setTimer k ⟨v, true⟩, .ok (timerData ⟨v, true⟩)) := by
      simp only [doCuea, portOf?_val]
    exact ⟨_, exec_console_plain (c := .cuea .console tag k.val v) (r := .cuea k.val v) hs hr rfl
      (instantsPast_of_ne (by simp)) (by simp [Request.wellFormed, fits32, hk, hv]) (congrArg answered hdo) rfl rfl,
      rfl, rfl, by simp [sameBut_iff, State.setTimer]⟩
  · have hdo : doCued k.val s = (s.setTimer k { s.tbp.timers.get k with armed := false },
        .ok (timerData { s.tbp.timers.get k with armed := false })) := by
      simp only [doCued, portOf?_val]
    exact ⟨_, exec_console_plain (c := .cued .console tag k.val) (r := .cued k.val) hs hr rfl
      (instantsPast_of_ne (by simp)) (by simpa [Request.wellFormed] using hk) (congrArg answered hdo) rfl rfl,
      rfl, rfl, by simp [sameBut_iff, State.setTimer]⟩

/-! ### The show-time event (R110 to R114) -/

/-- A cue timer once it has been compared with the clock (R112). -/
def CueTimer.compared (t : CueTimer) (clock : Nat) : CueTimer :=
  if t.armed ∧ t.compare ≤ clock then { t with armed := false } else t

/-- A notice table once a slot's cue timer has been compared with the clock (R112). -/
def CueTimer.told (t : CueTimer) (clock : Nat) (slot : Fin 4) (table : List NoticeEntry) : List NoticeEntry :=
  if t.armed ∧ t.compare ≤ clock then raiseIn table .cueTimer (.value slot.val) else table

theorem State.fireTimer_eq (s : State) (k : Fin 4) :
    s.fireTimer k = { s with
      tbp := { s.tbp with timers := s.tbp.timers.set k ((s.tbp.timers.get k).compared s.tbp.clock) }
      cli := { s.cli with notices := (s.tbp.timers.get k).told s.tbp.clock k s.cli.notices } } := by
  by_cases hdue : (s.tbp.timers.get k).armed ∧ (s.tbp.timers.get k).compare ≤ s.tbp.clock
  · simp only [State.fireTimer, CueTimer.compared, CueTimer.told, if_pos hdue]
    rfl
  · simp only [State.fireTimer, CueTimer.compared, CueTimer.told, if_neg hdue, Four.set_get]

/-- The four timers are compared with the clock as it stands, each raising its own notice, in slot order (R112). -/
theorem State.fireTimers_eq (s : State) :
    s.fireTimers = { s with
      tbp := { s.tbp with timers := s.tbp.timers.map (·.compared s.tbp.clock) }
      cli := { s.cli with
        notices := [(0 : Fin 4), 1, 2, 3].foldl (fun table k => (s.tbp.timers.get k).told s.tbp.clock k table)
          s.cli.notices } } := by
  simp only [State.fireTimers, State.fireTimer_eq]
  rfl

/-- Back-time reports a story: a running clock is past the target out of the current story, whose flag is clear (R114). -/
def State.overruns (s : State) (st : Story) : Prop :=
  s.tbp.running = true ∧ ∃ n target, s.sce.currentStory = some n ∧ s.scs.story? n = some st ∧
    st.target = some target ∧ target < s.tbp.clock ∧ st.overrun = false

theorem State.backTime_reports {s : State} {st : Story} (h : s.overruns st) :
    s.backTime = { s with scs := { s.scs with rundown := markOverrun s.scs.rundown st.number } }.raise .backtimeOver
      (.value st.number) := by
  obtain ⟨hrun, n, target, hcur, hst, htarget, hpast, hclear⟩ := h
  have hover : s.overdueStory? = some st := by
    simp [State.overdueStory?, hcur, hst, htarget, hpast, hclear]
  simp only [State.backTime, hrun, hover, if_true]

theorem State.backTime_silent {s : State} (h : ∀ st, ¬ s.overruns st) : s.backTime = s := by
  rcases hover : s.overdueStory? with _ | st
  · simp only [State.backTime, hover, ite_self]
  · have hrun : ¬ s.tbp.running = true := by
      intro hrun
      obtain ⟨hfound, htest⟩ := Option.filter_eq_some_iff.1 hover
      obtain ⟨n, hcur, hst⟩ := Option.bind_eq_some_iff.1 hfound
      rcases htarget : st.target with _ | target
      · simp [htarget] at htest
      · simp only [htarget, Bool.and_eq_true, Bool.not_eq_true', decide_eq_true_eq] at htest
        exact h st ⟨hrun, n, target, hcur, hst, htarget, htest.2, htest.1⟩
    simp only [State.backTime, if_neg hrun]

/-- The stories as the show-time event leaves them: the current one flagged where the running clock is past its target
(R114). -/
def State.flagged (s : State) (x : Story) : Story :=
  if s.tbp.running = true ∧ s.sce.currentStory = some x.number ∧ x.target.any (· < s.tbp.clock) = true then
    { x with overrun := true } else x

/-- A story of the rundown is the one its number names. -/
theorem Store.story?_number {st : Store} (hnd : (st.rundown.map (·.number)).Nodup) {x : Story} (hx : x ∈ st.rundown) :
    st.story? x.number = some x := by
  rcases hy : st.story? x.number with _ | y
  · exact absurd rfl (Store.story?_none hy x hx)
  · obtain ⟨hmem, hnum⟩ := Store.story?_mem hy
    exact congrArg some (List.inj_on_of_nodup_map hnd hmem hx hnum)

theorem State.flagged_reports {s : State} (hnd : (s.scs.rundown.map (·.number)).Nodup) {st : Story}
    (h : s.overruns st) : markOverrun s.scs.rundown st.number = s.scs.rundown.map s.flagged := by
  obtain ⟨hrun, n, target, hcur, hst, htarget, hpast, hclear⟩ := h
  obtain ⟨hmem, rfl⟩ := Store.story?_mem hst
  refine List.map_congr_left fun x hx => ?_
  by_cases hnum : x.number = st.number
  · have hxst : x = st := List.inj_on_of_nodup_map hnd hx hmem hnum
    subst hxst
    rw [if_pos rfl, State.flagged, if_pos ⟨hrun, hcur, by simpa [htarget] using hpast⟩]
  · rw [if_neg hnum, State.flagged, if_neg]
    rintro ⟨-, hx', -⟩
    rw [hcur] at hx'
    exact hnum (Option.some.inj hx').symm

theorem State.flagged_silent {s : State} (hnd : (s.scs.rundown.map (·.number)).Nodup) (h : ∀ st, ¬ s.overruns st) :
    s.scs.rundown.map s.flagged = s.scs.rundown := by
  refine (List.map_congr_left fun x hx => ?_).trans (List.map_id _)
  rw [State.flagged, id]
  split
  · next hdue =>
    obtain ⟨hrun, hcur, htarget⟩ := hdue
    obtain ⟨target, htarget, hpast⟩ := (Option.any_eq_true _ _).1 htarget
    have hover : x.overrun = true := by
      by_contra hclear
      exact h x ⟨hrun, x.number, target, hcur, Store.story?_number hnd hx, htarget, by simpa using hpast,
        by simpa using hclear⟩
    rw [← hover]
  · rfl

/-- The notice table as back-time leaves it (R114). -/
theorem State.backTime_told {s : State} {told : List NoticeEntry}
    (h : (∃ st, s.overruns st ∧ told = raiseIn s.cli.notices .backtimeOver (.value st.number)) ∨
      ((∀ st, ¬ s.overruns st) ∧ told = s.cli.notices)) :
    s.backTime.cli = { s.cli with notices := told } := by
  rcases h with ⟨st, hover, rfl⟩ | ⟨hnone, rfl⟩
  · rw [State.backTime_reports hover, State.raise_cli]
  · rw [State.backTime_silent hnone]

theorem State.backTime_scs {s : State} (hnd : (s.scs.rundown.map (·.number)).Nodup) :
    s.backTime.scs = { s.scs with rundown := s.scs.rundown.map s.flagged } := by
  by_cases hover : ∃ st, s.overruns st
  · obtain ⟨st, hover⟩ := hover
    rw [State.backTime_reports hover, State.raise_scs, State.flagged_reports hnd hover]
  · have hnone : ∀ st, ¬ s.overruns st := fun st h => hover ⟨st, h⟩
    rw [State.backTime_silent hnone, State.flagged_silent hnd hnone]

/-- The clock after one show-time event (R110). -/
def State.nextClock (s : State) : Nat :=
  if s.tbp.running then min (s.tbp.clock + 1) Config.clockMax else s.tbp.clock

/-- The state that the first two steps of the show-time event leave (R110, R112). -/
def State.timed (s : State) : State :=
  { s with
    tbp := { s.tbp with clock := s.nextClock, timers := s.tbp.timers.map (·.compared s.nextClock) }
    cli := { s.cli with
      notices := [(0 : Fin 4), 1, 2, 3].foldl (fun table k => (s.tbp.timers.get k).told s.nextClock k table)
        s.cli.notices }
    due := { s.due with showTime := s.due.showTime - 1 } }

theorem State.advanceClock_eq (s : State) : s.advanceClock = { s with tbp := { s.tbp with clock := s.nextClock } } := by
  by_cases hrun : s.tbp.running = true
  · simp only [State.advanceClock, State.nextClock, if_pos hrun]
  · simp only [State.advanceClock, State.nextClock, if_neg hrun]

theorem State.timed_eq (s : State) : s.showTimeTickTaken.advanceClock.fireTimers = s.timed := by
  rw [State.fireTimers_eq, State.advanceClock_eq]
  rfl

theorem State.fireTimer_quiet {s : State} {k : Fin 4}
    (h : (s.tbp.timers.get k).armed = false ∨ s.tbp.clock < (s.tbp.timers.get k).compare) : s.fireTimer k = s := by
  refine if_neg ?_
  rintro ⟨harmed, hreached⟩
  rcases h with h | h
  · exact absurd harmed (by simp [h])
  · omega

/-- Settles O32. -/
theorem showTimeAndCueTimers : Obligations.ShowTimeAndCueTimers := by
  refine ⟨fun s hs hnd => ?_, fun k s hs => ⟨fun harmed hreached => ?_, fun hquiet => ?_⟩⟩
  · have hnext : exec .showTimeTick s = finish s.timed.backTime := by
      rw [← s.timed_eq]
      rfl
    have hback : SameBut [.scs, .cli] s.timed s.timed.backTime := by simp [sameBut_iff]
    have htimed : SameBut [.tbp, .due, .cli] s s.timed := by simp [sameBut_iff, State.timed]
    have htbp : s.timed.backTime.settle.tbp = s.timed.tbp := hback .tbp (by decide)
    refine ⟨s.timed.backTime.settle, hnext, ?_, fun k => ?_, ?_, fun fired told hfired htold => ?_, ?_,
      hback .due (by decide), SameBut.settled_console hs ?_ (by simp)⟩
    · rw [htbp]
      rfl
    · rw [htbp]
      exact Four.get_map _ _ _
    · rw [htbp]
      rfl
    · rw [htbp] at hfired htold
      have htable : s.timed.cli.notices = fired := hfired.symm
      have hcase : (∃ st, s.timed.overruns st ∧ told = raiseIn s.timed.cli.notices .backtimeOver (.value st.number)) ∨
          ((∀ st, ¬ s.timed.overruns st) ∧ told = s.timed.cli.notices) := by
        rw [htable]
        rcases htold with ⟨n, target, st, hrun, hcur, hst, htarget, hpast, hclear, rfl⟩ | ⟨hnone, rfl⟩
        · refine .inl ⟨st, ⟨hrun, n, target, hcur, hst, htarget, hpast, hclear⟩, ?_⟩
          rw [(Store.story?_mem hst).2]
        · refine .inr ⟨fun st hover => ?_, rfl⟩
          obtain ⟨hrun, n, target, hcur, hst, htarget, hpast, hclear⟩ := hover
          simp [hnone n target st hrun hcur hst htarget hpast] at hclear
      exact congrArg LinkIface.pump (State.backTime_told hcase)
    · rw [htbp]
      exact State.backTime_scs (s := s.timed) hnd
    · exact (htimed.mono (by simp)).trans (hback.mono (by simp))
  · have hdo : exec (.cueTimer k) s = finish (s.fireTimer k) := rfl
    rw [State.fireTimer_eq] at hdo
    refine ⟨_, hdo, ?_, ?_, SameBut.settled_console hs ?_ (by simp)⟩
    · rw [State.settle_tbp, CueTimer.compared, if_pos ⟨harmed, hreached⟩]
    · rw [CueTimer.told, if_pos ⟨harmed, hreached⟩]
      rfl
    · simp [sameBut_iff]
  · have hdo : exec (.cueTimer k) s = finish (s.fireTimer k) := rfl
    rw [State.fireTimer_quiet hquiet] at hdo
    exact hdo.trans (finish_settled hs)

/-! ### Stagings (R148 to R150) -/

theorem State.stagingDone_eq (s : State) (f : Frame) :
    s.stagingDone f = { s with
      wst := { s.wst with
        sequence := nextSequence s.wst.sequence
        latest := some ⟨nextSequence s.wst.sequence, f⟩
        buffer := if s.wst.restage then some s.snapshot else none
        restage := false } } := by
  by_cases hre : s.wst.restage = true
  · simp only [State.stagingDone, if_pos hre]
    rfl
  · simp only [State.stagingDone, if_neg hre]

/-- Settles O43. -/
theorem stagingCompletes : Obligations.StagingCompletes := by
  refine ⟨fun s => ⟨fun hidle => ?_, fun hbusy => ?_, rfl⟩, fun f s hs hbuf => ?_⟩
  · simp only [State.trigger, hidle]
  · obtain ⟨f, hf⟩ := Option.ne_none_iff_exists'.1 hbusy
    simp only [State.trigger, hf]
  · have hnext : exec .stagingCompletion s = finish (s.stagingDone f) := by
      show execStagingCompletion s = _
      simp only [execStagingCompletion, hbuf]
    rw [State.stagingDone_eq] at hnext
    exact ⟨_, hnext.trans (finish_of_links hs rfl rfl), rfl, rfl, rfl, rfl, rfl, rfl, by simp [sameBut_iff]⟩

/-! ### Slots and packets (R153 to R156, R185) -/

/-- The kind of the packet that the next slot at an output sends (R154). -/
def State.slotKind (s : State) (o : OutputId) : PacketKind :=
  match s.wst.latest with
  | none => .static
  | some l =>
    if (s.out o).lastSent ≠ some l.sequence then .new else if s.wst.buffer.isSome then .underrun else .static

/-- The frame that the next slot sends, before the output's mirror (R154). -/
def State.slotFrame (s : State) : Frame :=
  match s.wst.latest with
  | none => s.wst.blankFrame
  | some l => l.frame

/-- The sequence last sent once a slot has been opened (R154). -/
def State.slotSequence (s : State) (o : OutputId) : Option Nat :=
  match s.wst.latest with
  | none => (s.out o).lastSent
  | some l => some l.sequence

/-- The output as a slot leaves it (R154, R155). -/
def State.slotOut (s : State) (o : OutputId) : Output :=
  { (s.out o).start (s.slotKind o) s.slotFrame with
    lastSent := s.slotSequence o
    underrun := if s.slotKind o = .underrun then bump (s.out o).underrun else (s.out o).underrun }

/-- The console notice table as a slot leaves it (R154). -/
def State.slotNotices (s : State) (o : OutputId) : List NoticeEntry :=
  if s.slotKind o = .underrun then raiseIn s.cli.notices .outputUnderrun (.output o) else s.cli.notices

/-- A slot sets its own output and, for an UNDERRUN packet, raises its notice (R154). -/
theorem State.openSlot_eq (s : State) (o : OutputId) :
    s.openSlot o = { s.setOut o (s.slotOut o) with cli := { s.cli with notices := s.slotNotices o } } := by
  rcases hl : s.wst.latest with _ | l
  · have hkind : s.slotKind o = .static := by simp only [State.slotKind, hl]
    simp only [State.openSlot, State.slotOut, State.slotNotices, hkind, State.slotFrame, State.slotSequence, hl,
      reduceCtorEq, if_false]
    cases o <;> rfl
  · by_cases hseq : (s.out o).lastSent = some l.sequence
    · by_cases hbuf : s.wst.buffer.isSome = true
      · have hkind : s.slotKind o = .underrun := by simp [State.slotKind, hl, hseq, hbuf]
        simp only [State.openSlot, State.slotOut, State.slotNotices, hkind, State.slotFrame, State.slotSequence, hl,
          ne_eq, hseq, not_true_eq_false, if_false, hbuf, if_true]
        rw [← hseq]
        cases o <;> rfl
      · have hkind : s.slotKind o = .static := by simp [State.slotKind, hl, hseq, hbuf]
        simp only [State.openSlot, State.slotOut, State.slotNotices, hkind, State.slotFrame, State.slotSequence, hl,
          ne_eq, hseq, not_true_eq_false, if_false, hbuf, reduceCtorEq, Bool.false_eq_true]
        rw [← hseq]
        cases o <;> rfl
    · have hkind : s.slotKind o = .new := by simp [State.slotKind, hl, hseq]
      simp only [State.openSlot, State.slotOut, State.slotNotices, hkind, State.slotFrame, State.slotSequence, hl,
        ne_eq, hseq, not_false_eq_true, if_true, reduceCtorEq, if_false]
      cases o <;> rfl

/-- A row as an output sends it, mirrored where the output mirrors (R155). -/
def Row.sentAs (mirror : Bool) (r : Row) : Row := if mirror then r.mirrored else r

theorem Frame.sentBy_eq (f : Frame) (c : OutputConfig) :
    f.sentBy c = { f with rows := f.rows.map (·.sentAs c.mirror) } := by
  by_cases hm : c.mirror = true
  · have hrow : (fun r : Row => r.sentAs c.mirror) = Row.mirrored := funext fun r => if_pos hm
    rw [hrow]
    exact if_pos hm
  · have hrow : (fun r : Row => r.sentAs c.mirror) = id := funext fun r => if_neg hm
    rw [hrow, List.map_id]
    exact if_neg hm

theorem State.outTickTaken_sameBut (s : State) (o : OutputId) : SameBut [.due] s (s.outTickTaken o) := by
  cases o <;> simp [sameBut_iff, State.outTickTaken]

theorem State.setOut_sameBut (s : State) (o : OutputId) (x : Output) : SameBut [outBlock o] s (s.setOut o x) := by
  cases o <;> simp [sameBut_iff, State.setOut, outBlock]

theorem Output.takesTicks_iff (x : Output) : x.takesTicks = true ↔ x.config.enable = true ∧ x.config.framing = .master := by
  simp [Output.takesTicks]

theorem exec_outputTick_idle {o : OutputId} {s : State} (h : (s.out o).takesTicks = true)
    (hidle : (s.out o).sending = none) : exec (.outputTick o) s = finish ((s.outTickTaken o).openSlot o) := by
  show execOutputTick o s = _
  simp only [execOutputTick, if_pos h, hidle]

theorem exec_outputTick_sending {o : OutputId} {s : State} {p : Packet} (h : (s.out o).takesTicks = true)
    (hsend : (s.out o).sending = some p) : exec (.outputTick o) s =
      finish ((s.outTickTaken o).setOut o { s.out o with late := bump (s.out o).late }) := by
  show execOutputTick o s = _
  simp only [execOutputTick, if_pos h, hsend]

theorem exec_frameSync_idle {o : OutputId} {s : State}
    (h : (s.out o).config.enable = true ∧ (s.out o).config.framing = .slave) (hidle : (s.out o).sending = none) :
    exec (.frameSyncRequest o) s = finish (s.openSlot o) := by
  show execFrameSyncRequest o s = _
  simp only [execFrameSyncRequest, if_pos h, hidle]

theorem exec_frameSync_sending {o : OutputId} {s : State} {p : Packet}
    (h : (s.out o).config.enable = true ∧ (s.out o).config.framing = .slave) (hsend : (s.out o).sending = some p) :
    exec (.frameSyncRequest o) s = finish (s.setOut o { s.out o with collision := bump (s.out o).collision }) := by
  show execFrameSyncRequest o s = _
  simp only [execFrameSyncRequest, if_pos h, hsend]

/-- Settles O45. -/
theorem sendingOutputSkipsSlots : Obligations.SendingOutputSkipsSlots := by
  refine ⟨fun o p s hs hsend => ⟨fun hen hmaster => ?_, fun hen hslave => ?_, ?_⟩,
    fun o s hs => ⟨fun hoff => ?_, fun hoff => ?_, rfl, rfl⟩⟩
  · have hnext := exec_outputTick_sending ((Output.takesTicks_iff _).2 ⟨hen, hmaster⟩) hsend
    have htaken := s.outTickTaken_sameBut o
    refine ⟨_, hnext.trans (finish_of_links hs ?_ ?_), State.setOut_out_same _ _ _, State.setOut_due _ _ _,
      (htaken.mono (by simp)).trans ((State.setOut_sameBut _ _ _).mono (by simp))⟩
    · exact (State.setOut_cli _ _ _).trans (htaken .cli (by decide))
    · exact (State.setOut_rli _ _ _).trans (htaken .rli (by decide))
  · exact ⟨_, (exec_frameSync_sending ⟨hen, hslave⟩ hsend).trans
      (finish_of_links hs (State.setOut_cli _ _ _) (State.setOut_rli _ _ _)), State.setOut_out_same _ _ _,
      State.setOut_sameBut _ _ _⟩
  · exact ⟨_, (show exec (.packetSendCompletion o) s = finish (s.setOut o { s.out o with sending := none }) from rfl).trans
      (finish_of_links hs (State.setOut_cli _ _ _) (State.setOut_rli _ _ _)), State.setOut_out_same _ _ _,
      State.setOut_sameBut _ _ _⟩
  · have hnot : ¬ (s.out o).takesTicks = true := by
      rw [Output.takesTicks_iff]
      rintro ⟨hen, hmaster⟩
      rcases hoff with h | h
      · simp [h] at hen
      · simp [h] at hmaster
    have htaken := s.outTickTaken_sameBut o
    exact ⟨_, (show exec (.outputTick o) s = finish (s.outTickTaken o) from if_neg hnot).trans
      (finish_of_links hs (htaken .cli (by decide)) (htaken .rli (by decide))), rfl, htaken⟩
  · refine (show exec (.frameSyncRequest o) s = finish s from if_neg ?_).trans (finish_settled hs)
    rintro ⟨hen, hslave⟩
    rcases hoff with h | h
    · simp [h] at hen
    · simp [h] at hslave

/-- What a slot makes of an output and of the console link (R154, R155). -/
theorem State.openSlot_sends (s : State) (o : OutputId) :
    (s.openSlot o).out o = s.slotOut o ∧ (s.openSlot o).cli = { s.cli with notices := s.slotNotices o } ∧
      SameBut [outBlock o, .cli] s (s.openSlot o) := by
  rw [State.openSlot_eq]
  cases o <;> exact ⟨rfl, rfl, by simp [sameBut_iff, State.setOut, outBlock]⟩

/-- The frames of a packet's rows are those of the staged rows (R155). -/
theorem Row.sentAs_line (mirror : Bool) (lid story : Nat) (style : Style) (mark : Mark) (text : List CharCell) :
    (Row.line lid story style mark text).sentAs mirror =
      .line lid story style mark (if mirror then text.reverse else text) := by
  cases mirror <;> rfl

/-- Settles O44. -/
theorem slotSendsPacket : Obligations.SlotSendsPacket := by
  refine ⟨fun o c s hidle hc => ?_, fun p content hcontent => ?_⟩
  · obtain ⟨u, hnext, hu, hdue⟩ : ∃ u, exec c s = finish (u.openSlot o) ∧ SameBut [.due] s u ∧
        u.due = (if c = .outputTick o then (s.outTickTaken o).due else s.due) := by
      rcases hc with ⟨rfl, hen, hmaster⟩ | ⟨rfl, hen, hslave⟩
      · exact ⟨_, exec_outputTick_idle ((Output.takesTicks_iff _).2 ⟨hen, hmaster⟩) hidle, s.outTickTaken_sameBut o,
          (if_pos rfl).symm⟩
      · exact ⟨s, exec_frameSync_idle ⟨hen, hslave⟩ hidle, SameBut.refl _ _, (if_neg (by simp)).symm⟩
    obtain ⟨hout, hcli, hframe⟩ := u.openSlot_sends o
    have hx : u.out o = s.out o := by
      cases o
      · exact hu .loa (by decide)
      · exact hu .lob (by decide)
    have hwst : u.wst = s.wst := hu .wst (by decide)
    have hnotices : u.cli = s.cli := hu .cli (by decide)
    have hout' : (u.openSlot o).settle.out o = u.slotOut o := by
      rw [← hout]
      cases o <;> rfl
    have hall : SameBut [outBlock o, .due, .cli, .rli] s (u.openSlot o).settle :=
      ((hu.mono (by simp)).trans (hframe.mono (by simp))).trans ((u.openSlot o).settle_sameBut.mono (by simp))
    have hslot : (u.openSlot o).settle.due = u.due := by
      refine ((u.openSlot o).settle_sameBut .due (by decide)).trans (hframe .due ?_)
      cases o <;> decide
    refine ⟨(u.openSlot o).settle, ⟨(u.out o).packetCounter, u.slotKind o, u.slotFrame.sentBy (u.out o).config,
      (u.out o).config.framing = .master⟩, hnext, ?_⟩
    rw [hout', ← hx, ← hwst, ← hnotices, hslot]
    refine ⟨rfl, rfl, rfl, rfl, rfl, fun hnone => ?_, fun l hl => ?_, fun hkind => ?_, fun hkind => ?_, rfl, rfl, hdue,
      hall⟩
    · refine ⟨by simp only [State.slotKind, hnone], by simp only [State.slotOut, State.slotSequence, hnone], ?_⟩
      simp only [State.slotFrame, hnone, Frame.sentBy_eq, Stager.blankFrame, List.map_replicate]
      cases (u.out o).config.mirror <;> rfl
    · refine ⟨?_, by simp only [State.slotOut, State.slotSequence, hl], by simp only [State.slotKind, hl]⟩
      simp only [State.slotFrame, hl, Frame.sentBy_eq]
      refine congrArg (fun rows => { l.frame with rows := rows }) (List.map_congr_left fun r _ => ?_)
      cases r with
      | blank => cases (u.out o).config.mirror <;> rfl
      | line lid story style mark text => exact Row.sentAs_line _ _ _ _ _ _
    · refine ⟨if_pos hkind, ?_⟩
      show (u.openSlot o).cli.pump = _
      rw [hcli, State.slotNotices, if_pos hkind]
      rfl
    · refine ⟨if_neg hkind, ?_⟩
      show (u.openSlot o).cli.pump = _
      rw [hcli, State.slotNotices, if_neg hkind]
      rfl
  · have hwhole : p.content = content := by
      rw [hcontent]
      refine congrArg₂ (· ++ ·) ?_ ?_
      · rcases p with ⟨counter, kind, frame, mark⟩
        cases kind <;> rfl
      · rw [List.flatMap_def]
        refine congrArg List.flatten (List.map_congr_left fun r _ => ?_)
        cases r with
        | blank => rfl
        | line lid story style mark text => simp [Row.bytes, cells, listOf, u8]
    simp [Packet.bytes, hwhole]

end Sys2Proof.Machine

/-! PROOFS. The links: the outgoing line, notice tables, what the interface answers itself, receiving frames, payloads read
back, queued requests and the two reads. -/

namespace Sys2Proof.Machine

/-! ### The outgoing line (R174, R176, R177, R183) -/

/-- What is left to send on a line does not depend on the intake side of its interface. -/
theorem LinkIface.pump_intake (l : LinkIface) (r : Receiver) (q : List RequestFrame) (d : Option ReadInFlight) (e : Nat) :
    LinkIface.pump { l with receiver := r, receiveQueue := q, reading := d, errors := e } =
      { l.pump with receiver := r, receiveQueue := q, reading := d, errors := e } := by
  obtain ⟨receiver, queue, reading, responses, line, notices, errors⟩ := l
  cases line with
  | some f => rfl
  | none =>
    cases responses with
    | cons x rest => rfl
    | nil =>
      simp only [LinkIface.pump]
      cases notices.find? (fun e => e.pending && e.enabled) <;> rfl

/-- A settled line with nothing to send stays so whatever its interface takes in. -/
theorem LinkIface.pump_intake_settled {l : LinkIface} (h : l.pump = l) (r : Receiver) (q : List RequestFrame)
    (d : Option ReadInFlight) (e : Nat) :
    LinkIface.pump { l with receiver := r, receiveQueue := q, reading := d, errors := e } =
      { l with receiver := r, receiveQueue := q, reading := d, errors := e } := by
  rw [LinkIface.pump_intake, h]

/-- Settles O60. -/
theorem outgoingLine : Obligations.OutgoingLine := by
  refine ⟨fun link s hs => ⟨fun r rest f hline hq => ?_, fun e hq he => ?_, fun hq hnone => ?_⟩,
    fun link s => ⟨fun r rest hline hq => ?_, fun e hline hq he => ?_, fun hs => ?_⟩, fun r causes => ⟨?_, ?_⟩, fun e => ?_,
    fun f body hbody => ?_⟩
  · refine ⟨_, finish_setLink hs link _, ?_, State.setLink_sameBut _ _ _⟩
    rw [State.setLink_link_same]
    exact LinkIface.pump_response rfl hq
  · refine ⟨_, finish_setLink hs link _, ?_, State.setLink_sameBut _ _ _⟩
    rw [State.setLink_link_same]
    exact LinkIface.pump_notice rfl hq he
  · refine ⟨_, finish_setLink hs link _, ?_, State.setLink_sameBut _ _ _⟩
    rw [State.setLink_link_same]
    refine LinkIface.pump_idle hq (List.find?_eq_none.2 fun x hx => ?_)
    rcases hnone x hx with h | h <;> simp [h]
  · refine ⟨_, rfl, ?_, ?_⟩
    · rw [State.settle_link, State.setLink_link_same, LinkIface.pump_pump]
      exact LinkIface.pump_response hline hq
    · exact ((State.setLink_sameBut s link _).mono (by cases link <;> simp [linkBlock])).trans (State.settle_sameBut _)
  · refine ⟨_, rfl, ?_, ?_⟩
    · rw [State.settle_link, State.setLink_link_same, LinkIface.pump_pump]
      exact LinkIface.pump_notice hline hq he
    · exact ((State.setLink_sameBut s link _).mono (by cases link <;> simp [linkBlock])).trans (State.settle_sameBut _)
  · show finish (s.setLink link (s.link link).pump) = .next s
    rw [State.settled_link hs, show s.setLink link (s.link link) = s by cases link <;> rfl]
    exact finish_settled hs
  · obtain ⟨tag, mnem, status⟩ := r
    cases status <;> rfl
  · rintro rfl
    decide
  · obtain ⟨kind, enabled, pending, count, detail⟩ := e
    cases detail with
    | none => rfl
    | some d =>
      cases d with
      | value n => rfl
      | holder h => cases h <;> rfl
      | commit link tag cause => cases cause <;> simp [NoticeEntry.frame, detailBytes, NoticeDetail.bytes, causeByte, u8, ascii]
      | port n state => rfl
      | reference state => cases state <;> rfl
      | output o => cases o <;> rfl
      | jump target => rfl
      | settings x => cases x <;> rfl
  · subst hbody
    obtain ⟨kind, tag, mnem, payload⟩ := f
    cases kind <;> simp [LinkFrame.bytes, LinkFrame.body, startMarker, FrameKind.code, u8]

/-! ### Notice tables (R176, R178) -/

/-- The enables written: the last pair for a kind stands, and a kind without one keeps its enable (R178). -/
theorem foldl_writeEnable (pairs : List (Nat × Bool)) (t : List NoticeEntry) :
    pairs.foldl writeEnable t = t.map fun e =>
      { e with enabled := ((pairs.reverse.find? (fun p => p.1 = e.kind.number)).map (·.2)).getD e.enabled } := by
  induction pairs generalizing t with
  | nil => exact (List.map_id t).symm
  | cons p rest ih =>
    rw [List.foldl_cons, ih, writeEnable, List.map_map]
    refine List.map_congr_left fun e _ => ?_
    simp only [Function.comp, List.reverse_cons, List.find?_append]
    by_cases hp : e.kind.number = p.1
    · simp only [if_pos hp]
      rcases rest.reverse.find? (fun p => p.1 = e.kind.number) with _ | x <;> simp [hp]
    · simp only [if_neg hp]
      rcases rest.reverse.find? (fun p => p.1 = e.kind.number) with _ | x <;> simp [Ne.symm hp]

/-- Settles O59. -/
theorem noticeTables : Obligations.NoticeTables := by
  refine ⟨fun table k d => rfl, fun link tag pairs s hs hr hone hmax hkinds => ?_⟩
  have hall : pairs.all (fun p => (tableKinds (s.link link).notices).contains p.1) = true := by
    rw [List.all_eq_true]
    intro p hp
    obtain ⟨e, he, hnum⟩ := (hkinds p hp).2
    simpa [tableKinds] using ⟨e, he, hnum⟩
  have hdo : doNten link pairs s = (s.setLink link { s.link link with
      notices := pairs.foldl writeEnable (s.link link).notices },
      .ok ((pairs.foldl writeEnable (s.link link).notices).flatMap fun e => flag e.enabled)) :=
    if_pos ⟨hone, hmax, hall⟩
  have hwf : (Request.nten pairs).wellFormed = true := by
    simp only [Request.wellFormed, Bool.and_eq_true, fitsCount_iff, List.all_eq_true, fits8_iff]
    exact ⟨by omega, fun p hp => (hkinds p hp).1⟩
  refine ⟨_, _, exec_answered (c := .nten link tag pairs) (r := .nten pairs) hs hr rfl (instantsPast_of_ne (by simp))
    (by simp [rundownPermitted, Request.mnem]) hwf (congrArg answered hdo) (State.setLink_link_same _ _ _)
    (fun m hm => by rw [State.setLink_link, if_neg hm]), foldl_writeEnable pairs _, ?_, ?_⟩
  · rw [State.setLink_link_same]
    rfl
  · exact (State.setLink_sameBut _ _ _).trans (State.setLink_sameBut _ _ _)

/-! ### What the interface answers itself (R173, R175) -/

theorem exec_judged {c : Instr} {link : Link} {tag : Byte} {r : Request} {s : State} {st : Status} (hs : s.settled = true)
    (hc : c.request? = some (link, tag, r)) (hfree : (s.link link).free = true) (hi : Instr.instantsPast c s.tbp.now)
    (hjudge : judge link tag r.mnem (some r) s = (s, some st)) :
    ∃ t, exec c s = .next t ∧ t.link link = answeredWith (s.link link) tag r.mnem st ∧ SameBut [linkBlock link] s t := by
  refine ⟨_, ?_, State.setLink_link_same s link _, State.setLink_sameBut s link _⟩
  rw [exec_request hc hi, State.takeRequest_free hfree, State.deliver, hjudge]
  exact finish_respond hs rfl (fun _ _ => rfl) tag r.mnem.bytes st

/-- The instants of a request command lie in the past where those of a PARM on its link with its tag do. -/
theorem Instr.instantsPast_of_request {c : Instr} {link : Link} {tag : Byte} {r : Request} {now : Nat}
    (hc : c.request? = some (link, tag, r)) (h : ∀ n i v w, c = .parm link tag n i v w → w ≤ now) :
    Instr.instantsPast c now := by
  rintro l t n i v w rfl
  obtain ⟨rfl, rfl, -⟩ : l = link ∧ t = tag ∧ Request.parm n i v = r := by simpa [Instr.request?] using hc
  exact h n i v w rfl

/-- Settles O55. -/
theorem interfaceAnswersFirst : Obligations.InterfaceAnswersFirst := by
  intro c link tag r s hs hc hfree hpast
  have hi := Instr.instantsPast_of_request hc hpast
  refine ⟨fun hmode hstat => ?_, fun hmode hlink hset => ?_⟩
  · exact exec_judged hs hc hfree hi (by simp only [judge, if_pos (And.intro hmode hstat)])
  · have hnot : rundownPermitted r.mnem = false := by
      cases hm : r.mnem <;> simp_all [rundownPermitted]
    have hload : ¬ (s.msc.mode = .loading ∧ r.mnem ≠ .stat) := fun h => hmode h.1
    exact exec_judged hs hc hfree hi (by simp only [judge, if_neg hload, if_pos (And.intro hlink hnot)])

/-! ### Frames received (R171, R172, R183) -/

theorem u16_lengthField {n : Nat} (h : n < 65536) (rest : List Byte) : lengthField (u16 n ++ rest) = n := by
  simp only [lengthField, u16, List.cons_append, List.nil_append, List.getD_cons_zero, List.getD_cons_succ,
    BitVec.toNat_ofNat, Nat.reducePow]
  omega

theorem LinkIface.hunting_self {l : LinkIface} (h : l.receiver = .hunting) : { l with receiver := .hunting } = l := by
  rw [← h]

/-- A start byte at a hunting receiver begins a frame (R171). -/
theorem LinkIface.takeByte_start {l : LinkIface} (h : l.receiver = .hunting) :
    l.takeByte 0xA5 = { l with receiver := .assembling [] } := by
  simp only [LinkIface.takeByte, h, receiveByte]
  rfl

/-- A frame's bytes, its length field judged and its whole length come, at a receiver that hunts (R171, R183). -/
theorem LinkIface.takeFrame {l : LinkIface} (h : l.receiver = .hunting) {kind tag : Byte}
    {mnem payload body check : List Byte} (hmnem : mnem.length = 4) (hpayload : payload.length ≤ 1020)
    (hbody : body = u16 (payload.length + 6) ++ [kind, tag] ++ mnem ++ payload) (hcheck : check.length = 2) :
    ([0xA5] ++ body ++ check).foldl LinkIface.takeByte l =
      if check = u16 (crc16 body).toNat ∧ kind = 0x01 then l.offer ⟨tag, mnem, payload⟩ else l.countError := by
  have hfield : ∀ rest, lengthField (body ++ rest) = payload.length + 6 := fun rest => by
    rw [hbody, List.append_assoc, List.append_assoc, List.append_assoc]
    exact u16_lengthField (by omega) _
  have hlen : body.length = payload.length + 8 := by
    rw [hbody]
    simp [u16, hmnem]
    omega
  obtain ⟨c1, c2, rfl⟩ : ∃ c1 c2, check = [c1, c2] := List.length_eq_two.1 hcheck
  have hwhole : [0xA5] ++ body ++ [c1, c2] = 0xA5 :: ((body ++ [c1]) ++ [c2]) := by simp
  have hprior : ((body ++ [c1]).foldl LinkIface.takeByte { l with receiver := .assembling [] }) =
      { l with receiver := .assembling (body ++ [c1]) } := by
    refine LinkIface.takeBytes_assembling (l := { l with receiver := .assembling [] }) (prior := []) rfl fun _ => ?_
    rw [List.nil_append, hfield, List.length_append, hlen]
    refine ⟨by omega, by omega, ?_⟩
    simp
  have hbytes : (body ++ [c1]) ++ [c2] = body ++ [c1, c2] := by simp
  have hjudge : receiveByte (.assembling (body ++ [c1])) c2 = judgeFrame (body ++ [c1, c2]) := by
    have hcount : (body ++ [c1, c2]).length = payload.length + 10 := by simp [hlen]
    simp only [receiveByte, hbytes]
    rw [if_neg (by omega), hfield, if_neg (by omega), if_neg (by omega)]
  have htake : (body ++ [c1, c2]).take (lengthField (body ++ [c1, c2]) + 2) = body := by
    rw [hfield]
    exact List.take_left' (by omega)
  have hdrop : (body ++ [c1, c2]).drop (lengthField (body ++ [c1, c2]) + 2) = [c1, c2] := by
    rw [hfield]
    exact List.drop_left' (by omega)
  have hkind : (body ++ [c1, c2]).getD 2 0 = kind := by simp [hbody, u16]
  have htag : (body ++ [c1, c2]).getD 3 0 = tag := by simp [hbody, u16]
  have hmn : (body.drop 4).take 4 = mnem := by
    rw [hbody]
    simpa [u16] using List.take_left' (l₁ := mnem) (l₂ := payload) hmnem
  have hpay : body.drop 8 = payload := by
    rw [hbody]
    simpa [u16] using List.drop_left' (l₁ := mnem) (l₂ := payload) hmnem
  rw [hwhole, List.foldl_cons, LinkIface.takeByte_start h, List.foldl_append, hprior, List.foldl_cons, List.foldl_nil,
    LinkIface.takeByte, hjudge, judgeFrame, htake, hdrop, hkind, htag, hmn, hpay]
  by_cases hok : [c1, c2] = u16 (crc16 body).toNat ∧ kind = 0x01
  · rw [if_pos hok]
    simp only [if_pos (show [c1, c2] = u16 (crc16 body).toNat ∧ kind = BitVec.ofNat 8 FrameKind.request.code from hok)]
    exact congrArg (LinkIface.offer · _) (LinkIface.hunting_self h)
  · rw [if_neg hok]
    simp only [if_neg (show ¬ ([c1, c2] = u16 (crc16 body).toNat ∧ kind = BitVec.ofNat 8 FrameKind.request.code) from hok)]
    exact congrArg LinkIface.countError (LinkIface.hunting_self h)

theorem LinkIface.offer_joins {l : LinkIface} (h : l.receiveQueue.length < 4) (f : RequestFrame) :
    l.offer f = { l with receiveQueue := l.receiveQueue ++ [f] } := if_pos h

theorem LinkIface.offer_busy {l : LinkIface} (h : 4 ≤ l.receiveQueue.length) (hroom : l.responsePlaces < 8)
    (f : RequestFrame) : l.offer f = { l with responseQueue := l.responseQueue ++ [⟨f.tag, f.mnem, .busy⟩] } :=
  (if_neg (Nat.not_lt.2 h)).trans (if_pos hroom)

theorem LinkIface.offer_lost {l : LinkIface} (h : 4 ≤ l.receiveQueue.length) (hfull : 8 ≤ l.responsePlaces)
    (f : RequestFrame) : l.offer f = l.countError :=
  (if_neg (Nat.not_lt.2 h)).trans (if_neg (Nat.not_lt.2 hfull))

/-- A length field out of range ends the frame (R171). -/
theorem LinkIface.takeLength_bad {l : LinkIface} (h : l.receiver = .hunting) {n : Nat} (hn : n < 65536)
    (hbad : n < 6 ∨ 1026 < n) : ([0xA5] ++ u16 n).foldl LinkIface.takeByte l = l.countError := by
  have hfield : lengthField (u16 n) = n := by simpa using u16_lengthField hn []
  have hfirst : receiveByte (.assembling []) (BitVec.ofNat 8 (n / 256)) = .more (.assembling [BitVec.ofNat 8 (n / 256)]) := rfl
  have hsecond : receiveByte (.assembling [BitVec.ofNat 8 (n / 256)]) (BitVec.ofNat 8 n) = .discard := by
    have hbytes : [BitVec.ofNat 8 (n / 256)] ++ [BitVec.ofNat 8 n] = u16 n := rfl
    simp only [receiveByte, hbytes, hfield, if_pos hbad]
    exact if_neg (by simp [u16])
  simp only [u16, List.cons_append, List.nil_append, List.foldl_cons, List.foldl_nil]
  rw [LinkIface.takeByte_start h]
  simp only [LinkIface.takeByte, hfirst, hsecond]
  exact congrArg LinkIface.countError (LinkIface.hunting_self h)

theorem exec_linkBytes {link : Link} {bytes : List Byte} {s : State} {l : LinkIface} (hs : s.settled = true)
    (htake : bytes.foldl LinkIface.takeByte (s.link link) = l) :
    exec (.linkFrameReceived link bytes) s = .next (s.setLink link l.pump) := by
  rw [← htake]
  exact finish_setLink hs link _

theorem LinkIface.countError_settled {l : LinkIface} (h : l.pump = l) :
    l.countError.pump = { l with errors := min (l.errors + 1) 65535 } :=
  LinkIface.pump_intake_settled h l.receiver l.receiveQueue l.reading _

/-- Settles O53. -/
theorem framesReceived : Obligations.FramesReceived := by
  refine ⟨fun link kind tag mnem payload body check f s hs hhunt hmnem hpayload hbody hcheck hf =>
    ⟨fun hkind hcrc => ⟨fun hroom => ?_, fun hfull hroom => ?_, fun hfull hfull' => ?_⟩, fun hbad => ?_⟩,
    fun link length dropped bytes s hs hhunt hdropped => ⟨fun hlt hbad => ?_, ?_, ?_⟩,
    fun link bytes s hs => ⟨fun hasm => ?_, fun hhunt => ?_⟩⟩
  · have htake := LinkIface.takeFrame hhunt hmnem hpayload hbody hcheck
    rw [if_pos ⟨hcrc, hkind⟩, ← hf, LinkIface.offer_joins hroom] at htake
    refine ⟨_, exec_linkBytes hs htake, ?_, State.setLink_sameBut _ _ _⟩
    rw [State.setLink_link_same]
    exact LinkIface.pump_intake_settled (State.settled_link hs link) _ _ _ _
  · have htake := LinkIface.takeFrame hhunt hmnem hpayload hbody hcheck
    rw [if_pos ⟨hcrc, hkind⟩, LinkIface.offer_busy hfull hroom] at htake
    exact ⟨_, exec_linkBytes hs htake, State.setLink_link_same _ _ _, State.setLink_sameBut _ _ _⟩
  · have htake := LinkIface.takeFrame hhunt hmnem hpayload hbody hcheck
    rw [if_pos ⟨hcrc, hkind⟩, LinkIface.offer_lost hfull hfull'] at htake
    refine ⟨_, exec_linkBytes hs htake, ?_, State.setLink_sameBut _ _ _⟩
    rw [State.setLink_link_same, LinkIface.countError_settled (State.settled_link hs link)]
  · have htake := LinkIface.takeFrame hhunt hmnem hpayload hbody hcheck
    rw [if_neg (by rintro ⟨hcrc, hkind⟩; exact hbad.elim (· hkind) (· hcrc))] at htake
    refine ⟨_, exec_linkBytes hs htake, ?_, State.setLink_sameBut _ _ _⟩
    rw [State.setLink_link_same, LinkIface.countError_settled (State.settled_link hs link)]
  · refine ⟨_, exec_linkBytes hs (LinkIface.takeLength_bad hhunt hlt hbad), ?_, State.setLink_sameBut _ _ _⟩
    rw [State.setLink_link_same, LinkIface.countError_settled (State.settled_link hs link)]
  · rw [exec_linkBytes hs (LinkIface.takeBytes_dropped hhunt hdropped), State.settled_link hs, State.setLink_self]
  · show finish (s.setLink link ((dropped ++ bytes).foldl LinkIface.takeByte (s.link link))) = _
    rw [List.foldl_append, LinkIface.takeBytes_dropped hhunt hdropped]
    rfl
  · have htimeout : (s.link link).byteTimeout = { s.link link with receiver := .hunting }.countError := by
      simp only [LinkIface.byteTimeout, hasm]
    refine ⟨_, (show exec (.interByteTimeout link) s = finish (s.setLink link (s.link link).byteTimeout) from rfl).trans
      (finish_setLink hs link _), ?_, State.setLink_sameBut _ _ _⟩
    rw [State.setLink_link_same, htimeout]
    exact LinkIface.pump_intake_settled (State.settled_link hs link) _ _ _ _
  · have htimeout : (s.link link).byteTimeout = s.link link := by simp only [LinkIface.byteTimeout, hhunt]
    show finish (s.setLink link (s.link link).byteTimeout) = _
    rw [htimeout, State.setLink_self]
    exact finish_settled hs

/-! ### The reads (R17, R18) -/

theorem exec_readStarts {c : Instr} {link : Link} {tag : Byte} {r : Request} {s : State} {kind : ReadKind}
    {data : List Byte} (hs : s.settled = true) (hr : s.linkReady link = true) (hc : c.request? = some (link, tag, r))
    (hi : Instr.instantsPast c s.tbp.now) (hp : rundownPermitted r.mnem = true) (hw : r.wellFormed = true)
    (hserve : serve link tag r s = (s.startRead link kind tag data, none)) :
    ∃ t, exec c s = .next t ∧ t.link link = { s.link link with reading := some ⟨kind, tag, data⟩ } ∧
      SameBut [linkBlock link] s t := by
  refine ⟨_, (exec_later hr hc hi (fun _ => hp) hw hserve).trans (finish_setLink hs link _), ?_,
    State.setLink_sameBut _ _ _⟩
  rw [State.setLink_link_same]
  exact LinkIface.pump_intake_settled (State.settled_link hs link) _ _ _ _

theorem exec_readCompletes {link : Link} {r : ReadInFlight} {s : State} (hs : s.settled = true)
    (hreading : (s.link link).reading = some r) :
    ∃ t, finish (s.completeRead link r.kind) = .next t ∧
      t.link link = answeredWith { s.link link with reading := none } r.tag r.kind.mnem (.ok r.data) ∧
      SameBut [linkBlock link] s t := by
  have hdone : s.completeRead link r.kind = s.setLink link { s.link link with
      reading := none
      responseQueue := (s.link link).responseQueue ++ [⟨r.tag, r.kind.mnem.bytes, .ok r.data⟩] } := by
    simp only [State.completeRead, hreading, if_true, State.endRead, State.respond, State.setLink_link_same,
      State.setLink_setLink]
  rw [hdone]
  exact ⟨_, finish_setLink hs link _, State.setLink_link_same _ _ _, State.setLink_sameBut _ _ _⟩

/-- Settles O13. -/
theorem readsCaptureAtStart : Obligations.ReadsCaptureAtStart := by
  refine ⟨fun link tag lid count taken o n l story s hs hr hlid hcount hl ho hstory hst htaken => ?_,
    fun link tag lid count s hs hr hlid hcount hl => ?_, fun link tag page s hs hr hpage => ?_,
    fun link tag data s hs => ⟨fun hreading => exec_readCompletes hs hreading,
      fun hreading => exec_readCompletes hs hreading⟩⟩
  · have hdo : doRdln link tag lid count s = (s.startRead link .rdln tag (s.scs.captureLines lid o (clampTo 1 8 count)), none) := by
      simp only [doRdln, hl, Option.bind_some, Store.line?_lid hl, ho]
    have hn : s.scs.storyOfLine? lid = some n := by simp only [Store.storyOfLine?, hl, Option.bind_some, hstory]
    obtain ⟨t, ht, hlink, hframe⟩ := exec_readStarts (c := .rdln link tag lid count) (r := .rdln lid count) hs hr rfl
      (instantsPast_of_ne (by simp)) rfl (by simp [Request.wellFormed, hlid, hcount]) hdo
    refine ⟨t, (s.scs.capturedLines o taken).map s.scs.captureLine, ht, ?_, ?_, ?_, hframe⟩
    · rw [hlink, show clampTo 1 8 count = taken from htaken.symm]
      simp only [Store.captureLines, listOf, Store.captureStory, hn, Option.getD_some, hst, Option.bind_some,
        List.length_map, List.flatMap_def, Store.lineCount, List.append_assoc]
      rfl
    · simp [Store.capturedLines]
    · intro k x m y c hk hx hy hm hc
      have hcap : (s.scs.capturedLines o taken)[k]? = some (x, o + k) := by
        simp only [Store.capturedLines, List.getElem?_zipIdx, List.getElem?_take_of_lt hk, List.getElem?_drop, hx,
          Option.map_some]
      simp only [List.getElem?_map, hcap, Option.map_some, Store.captureLine, lineEntry, Store.storyOfLine?, hy,
        Option.bind_some, hm, hc, Option.getD_some, cells]
  · have hdo : doRdln link tag lid count s = answered (refuse s link .rdln .unknownLine lid) := by
      simp only [doRdln, hl, Option.bind_none]
      rfl
    obtain ⟨t, ht, hede, hlink, hframe⟩ := exec_refused (c := .rdln link tag lid count) (r := .rdln lid count) hs hr rfl
      (instantsPast_of_ne (by simp)) (fun _ => rfl) (by simp [Request.wellFormed, hlid, hcount]) hdo
    exact ⟨t, ht, hlink, hede, hframe.mono (by simp)⟩
  · obtain ⟨t, ht, hlink, hframe⟩ := exec_readStarts (c := .rdrn link tag page) (r := .rdrn page) hs hr rfl
      (instantsPast_of_ne (by simp)) rfl (by simpa [Request.wellFormed] using hpage) rfl
    exact ⟨t, ht, hlink, hframe⟩

/-! ### Requests written and read back (R183) -/

theorem mnemOf?_bytes (m : Mnem) : mnemOf? m.bytes = some m := by cases m <;> rfl

theorem readOpt_opt8 {o : Option Nat} (h : optFits fits8 o = true) (rest : List Byte) :
    readOpt read8 (opt u8 o ++ rest) = some (o, rest) :=
  readOpt_opt fun a ha => read8_u8 (by simpa [optFits, ha] using h) rest

theorem readOpt_opt16 {o : Option Nat} (h : optFits fits16 o = true) (rest : List Byte) :
    readOpt read16 (opt u16 o ++ rest) = some (o, rest) :=
  readOpt_opt fun a ha => read16_u16 (by simpa [optFits, ha] using h) rest

theorem readOpt_opt24 {o : Option Nat} (h : optFits fits24 o = true) (rest : List Byte) :
    readOpt read24 (opt u24 o ++ rest) = some (o, rest) :=
  readOpt_opt fun a ha => read24_u24 (by simpa [optFits, ha] using h) rest

theorem readOpt_opt32 {o : Option Nat} (h : optFits fits32 o = true) (rest : List Byte) :
    readOpt read32 (opt u32 o ++ rest) = some (o, rest) :=
  readOpt_opt fun a ha => read32_u32 (by simpa [optFits, ha] using h) rest

theorem readOpt_optFlag (o : Option Bool) (rest : List Byte) : readOpt readFlag (opt flag o ++ rest) = some (o, rest) :=
  readOpt_opt fun a _ => readFlag_flag a rest

theorem readOpt_optCells {o : Option (List CharCell)} (h : ∀ c, o = some c → c.length < 256) (rest : List Byte) :
    readOpt (readList readCell) (opt cells o ++ rest) = some (o, rest) :=
  readOpt_opt fun a ha => readCells_cells (h a ha) rest

theorem readPair_pair {p : Nat × Bool} (h : p.1 < 256) (rest : List Byte) :
    readPair (u8 p.1 ++ flag p.2 ++ rest) = some (p, rest) := by
  simp only [readPair, Reader.bind_eq, List.append_assoc, read8_u8 h, readFlag_flag, Option.bind_some, Reader.pure_eq]

/-- The fields of an edit, its kind aside (R121). -/
def editFields : EditParams → List Byte
  | .linesReplace s f l => u16 s ++ u24 f ++ u24 l
  | .linesInsert s a => u16 s ++ opt u24 a
  | .storyInsert s a slug t => u16 s ++ opt u16 a ++ opt cells slug ++ opt u32 t
  | .storyDrop s => u16 s
  | .storyMove s a => u16 s ++ opt u16 a

theorem editBytes_eq (e : EditParams) : editBytes e = u8 e.code ++ editFields e := by cases e <;> rfl

theorem EditParams.code_lt (e : EditParams) : e.code < 256 := by
  cases e with
  | linesReplace | linesInsert | storyInsert | storyDrop | storyMove => simp [EditParams.code]

theorem readEdit_editFields {e : EditParams} (h : e.wellFormed = true) (rest : List Byte) :
    readEdit e.code (editFields e ++ rest) = some (e, rest) := by
  cases e with
  | linesReplace story first last =>
    simp only [EditParams.wellFormed, Bool.and_eq_true, fits16_iff, fits24_iff] at h
    simp only [EditParams.code, readEdit, editFields, Reader.bind_eq, List.append_assoc, read16_u16 h.1.1,
      read24_u24 h.1.2, read24_u24 h.2, Option.bind_some, Reader.pure_eq]
  | linesInsert story after =>
    simp only [EditParams.wellFormed, Bool.and_eq_true, fits16_iff] at h
    simp only [EditParams.code, readEdit, editFields, Reader.bind_eq, List.append_assoc, read16_u16 h.1,
      readOpt_opt24 h.2, Option.bind_some, Reader.pure_eq]
  | storyInsert story after slug target =>
    simp only [EditParams.wellFormed, Bool.and_eq_true, fits16_iff] at h
    obtain ⟨⟨⟨hstory, hafter⟩, hslug⟩, htarget⟩ := h
    have hcells : ∀ c, slug = some c → c.length < 256 := by
      rintro c rfl
      simpa using hslug
    simp only [EditParams.code, readEdit, editFields, Reader.bind_eq, List.append_assoc, read16_u16 hstory,
      readOpt_opt16 hafter, readOpt_optCells hcells, readOpt_opt32 htarget, Option.bind_some, Reader.pure_eq]
  | storyDrop story =>
    simp only [EditParams.wellFormed, fits16_iff] at h
    simp only [EditParams.code, readEdit, editFields, Reader.bind_eq, read16_u16 h, Option.bind_some, Reader.pure_eq]
  | storyMove story after =>
    simp only [EditParams.wellFormed, Bool.and_eq_true, fits16_iff] at h
    simp only [EditParams.code, readEdit, editFields, Reader.bind_eq, List.append_assoc, read16_u16 h.1,
      readOpt_opt16 h.2, Option.bind_some, Reader.pure_eq]

/-- The reader of a mnemonic takes the fields of its request, and leaves what follows them (R183). -/
theorem readRequest_requestPayload {r : Request} (h : r.wellFormed = true) (rest : List Byte) :
    readRequest r.mnem (requestPayload r ++ rest) = some (r, rest) := by
  cases r with
  | clrs | frze | thaw | rels | free | eabn | ecmt | rfsl | save | load => rfl
  | rdrn n | lock n | thrs n | crvr n | cntr n | cued n | mode n =>
    simp only [Request.wellFormed, fits8_iff] at h
    simp only [Request.mnem, readRequest, requestPayload, Reader.bind_eq,
      read8_u8 h, Option.bind_some, Reader.pure_eq]
  | rdln lid count =>
    simp only [Request.wellFormed, Bool.and_eq_true, fits8_iff, fits24_iff] at h
    simp only [Request.mnem, readRequest, requestPayload, Reader.bind_eq, List.append_assoc,
      read24_u24 h.1, read8_u8 h.2, Option.bind_some, Reader.pure_eq]
  | mspd v =>
    simp only [Request.wellFormed, fitsSigned16, Bool.and_eq_true, decide_eq_true_eq] at h
    simp only [Request.mnem, readRequest, requestPayload, Reader.bind_eq, readSigned_i16 h.1 h.2,
      Option.bind_some, Reader.pure_eq]
  | jump kind param =>
    simp only [Request.wellFormed, Bool.and_eq_true, fits8_iff, fits24_iff] at h
    simp only [Request.mnem, readRequest, requestPayload, Reader.bind_eq, List.append_assoc,
      read8_u8 h.1, read24_u24 h.2, Option.bind_some, Reader.pure_eq]
  | srcs source enable priority =>
    simp only [Request.wellFormed, Bool.and_eq_true, fits8_iff] at h
    simp only [Request.mnem, readRequest, requestPayload, Reader.bind_eq, List.append_assoc,
      read8_u8 h.1, readFlag_flag, read8_u8 h.2, Option.bind_some, Reader.pure_eq]
  | parm name index value =>
    simp only [Request.wellFormed, Bool.and_eq_true, fits8_iff, fits32_iff] at h
    simp only [Request.mnem, readRequest, requestPayload, Reader.bind_eq, List.append_assoc,
      read8_u8 h.1.1, readOpt_opt8 h.1.2, read32_u32 h.2, Option.bind_some, Reader.pure_eq]
  | pget name index =>
    simp only [Request.wellFormed, Bool.and_eq_true, fits8_iff] at h
    simp only [Request.mnem, readRequest, requestPayload, Reader.bind_eq, List.append_assoc,
      read8_u8 h.1, readOpt_opt8 h.2, Option.bind_some, Reader.pure_eq]
  | crvw port first values =>
    simp only [Request.wellFormed, Bool.and_eq_true, fits8_iff, fitsCount_iff, List.all_eq_true, fits16_iff] at h
    obtain ⟨⟨⟨hport, hfirst⟩, hcount⟩, hvalues⟩ := h
    simp only [Request.mnem, readRequest, requestPayload, Reader.bind_eq, List.append_assoc, read8_u8 hport, read8_u8 hfirst,
      readList_listOf hcount (fun v hv rest => read16_u16 (hvalues v hv) rest), Option.bind_some, Reader.pure_eq]
  | clkc action value =>
    simp only [Request.wellFormed, Bool.and_eq_true, fits8_iff] at h
    simp only [Request.mnem, readRequest, requestPayload, Reader.bind_eq, List.append_assoc,
      read8_u8 h.1, readOpt_opt32 h.2, Option.bind_some, Reader.pure_eq]
  | cuea slot compare =>
    simp only [Request.wellFormed, Bool.and_eq_true, fits8_iff, fits32_iff] at h
    simp only [Request.mnem, readRequest, requestPayload, Reader.bind_eq, List.append_assoc,
      read8_u8 h.1, read32_u32 h.2, Option.bind_some, Reader.pure_eq]
  | amod mode constant =>
    simp only [Request.wellFormed, Bool.and_eq_true, fits8_iff] at h
    simp only [Request.mnem, readRequest, requestPayload, Reader.bind_eq, List.append_assoc,
      read8_u8 h.1, readOpt_opt16 h.2, Option.bind_some, Reader.pure_eq]
  | eopn edit count =>
    cases edit with
    | none => simp [Request.wellFormed] at h
    | some e =>
      simp only [Request.wellFormed, Bool.and_eq_true, fits16_iff] at h
      simp only [Request.mnem, readRequest, requestPayload, editBytes_eq, Reader.bind_eq, List.append_assoc,
        read8_u8 (EditParams.code_lt e), readEdit_editFields h.1, read16_u16 h.2, Option.bind_some, Reader.pure_eq]
  | elin slot style mark cue text =>
    simp only [Request.wellFormed, Bool.and_eq_true, fits8_iff, fitsCount_iff] at h
    obtain ⟨⟨⟨⟨hslot, hstyle⟩, hmark⟩, hcue⟩, htext⟩ := h
    simp only [Request.mnem, readRequest, requestPayload, Reader.bind_eq, List.append_assoc, read8_u8 hslot,
      read8_u8 hstyle, read8_u8 hmark, readOpt_opt8 hcue, readCells_cells htext, Option.bind_some, Reader.pure_eq]
  | qcan link tag =>
    simp only [Request.wellFormed, Bool.and_eq_true, fits8_iff] at h
    simp only [Request.mnem, readRequest, requestPayload, Reader.bind_eq, List.append_assoc,
      read8_u8 h.1, read8_u8 h.2, Option.bind_some, Reader.pure_eq]
  | qfrc link tag =>
    simp only [Request.wellFormed, Bool.and_eq_true, fits8_iff] at h
    simp only [Request.mnem, readRequest, requestPayload, Reader.bind_eq, List.append_assoc,
      read8_u8 h.1, read8_u8 h.2, Option.bind_some, Reader.pure_eq]
  | slck entry low high console rundown sticky inUse =>
    simp only [Request.wellFormed, Bool.and_eq_true, fits8_iff, fits16_iff] at h
    simp only [Request.mnem, readRequest, requestPayload, Reader.bind_eq, List.append_assoc,
      read8_u8 h.1.1, read16_u16 h.1.2, read16_u16 h.2, readFlag_flag, Option.bind_some, Reader.pure_eq]
  | tgts story target =>
    simp only [Request.wellFormed, Bool.and_eq_true, fits16_iff] at h
    simp only [Request.mnem, readRequest, requestPayload, Reader.bind_eq, List.append_assoc,
      read16_u16 h.1, readOpt_opt32 h.2, Option.bind_some, Reader.pure_eq]
  | stat selector index =>
    simp only [Request.wellFormed, Bool.and_eq_true, fits8_iff] at h
    simp only [Request.mnem, readRequest, requestPayload, Reader.bind_eq, List.append_assoc,
      read8_u8 h.1, readOpt_opt8 h.2, Option.bind_some, Reader.pure_eq]
  | dgld first entries length =>
    simp only [Request.wellFormed, Bool.and_eq_true, fits8_iff, decide_eq_true_eq, List.all_eq_true, fits16_iff] at h
    obtain ⟨⟨⟨hfirst, hcount⟩, hentries⟩, hlength⟩ := h
    have hlist : entries.length < 256 := by omega
    simp only [Request.mnem, readRequest, requestPayload, Reader.bind_eq, List.append_assoc, read8_u8 hfirst,
      readList_listOf hlist (fun e he rest => readPlayerArg_playerArgBytes (hentries e he) rest), read16_u16 hlength,
      Option.bind_some, Reader.pure_eq]
  | dgrn action loop =>
    simp only [Request.wellFormed, fits8_iff] at h
    simp only [Request.mnem, readRequest, requestPayload, Reader.bind_eq, List.append_assoc,
      read8_u8 h, readOpt_optFlag, Option.bind_some, Reader.pure_eq]
  | nten pairs =>
    simp only [Request.wellFormed, Bool.and_eq_true, fitsCount_iff, List.all_eq_true, fits8_iff] at h
    simp only [Request.mnem, readRequest, requestPayload, Reader.bind_eq,
      readList_listOf h.1 (fun p hp rest => readPair_pair (h.2 p hp) rest), Option.bind_some, Reader.pure_eq]

theorem parseRequest_requestPayload {r : Request} (h : r.wellFormed = true) :
    parseRequest r.mnem (requestPayload r) = some r := by
  have hread := readRequest_requestPayload h []
  rw [List.append_nil] at hread
  simp only [parseRequest, StateT.run, hread]

/-- Settles O52. -/
theorem requestPayloadRoundTrip : Obligations.RequestPayloadRoundTrip := fun r h =>
  ⟨parseRequest_requestPayload h, mnemOf?_bytes r.mnem⟩

/-- Settles O54. -/
theorem queuedRequestIsCommand : Obligations.QueuedRequestIsCommand := by
  intro c link tag r instant s hc hw hqueue hexec hinstant hpast
  have htaken : ((s.setLink link { s.link link with receiveQueue := [] }).link link).free = true := by
    rw [State.setLink_link_same]
    exact hexec
  have hnow : (s.setLink link { s.link link with receiveQueue := [] }).tbp.now = s.tbp.now := by
    rw [State.setLink_tbp]
  have hi : Instr.instantsPast c (s.setLink link { s.link link with receiveQueue := [] }).tbp.now :=
    hnow ▸ Instr.instantsPast_of_request hc hpast
  refine ⟨_, rfl, ?_⟩
  rw [exec_request hc hi, State.takeRequest_free htaken, State.reach_past hinstant]
  simp only [State.executeNext, hqueue, hexec, if_true, State.executeFrame, requestFrame, mnemOf?_bytes,
    parseRequest_requestPayload hw]
  rfl

end Sys2Proof.Machine

/-! PROOFS. The named parameters and the reads of state: PARM (R35, R69, R80, R91, R105, R109, R116, R130, R144, R152, R179),
STAT, PGET and RFSL (R88, R118, R140, R141, R158, R179, R180). -/

namespace Sys2Proof.Machine

/-! ### A parameter written (R179) -/

theorem Instr.instantsPast_parm {link : Link} {tag : Byte} {n v w now : Nat} {i : Option Nat} (h : w ≤ now) :
    Instr.instantsPast (.parm link tag n i v w) now := by
  rintro l t m j x y heq
  obtain ⟨-, -, -, -, -, rfl⟩ := Instr.parm.inj heq
  exact h

section
variable {tag : Byte} {n v w : Nat} {i : Option Nat} {p : Param} {s u : State} {st : Status} (hs : s.settled = true)
  (hr : s.consoleReady = true) (hv : v < 4294967296) (hw : w ≤ s.tbp.now) (hn : n < 256)
  (hi : optFits fits8 i = true) (hp : paramOf? n i = some p) (hwrite : s.writeParam p v = (u, st))
include hs hr hv hw hn hi hp hwrite

/-- A PARM on the console link: its owner's write, and the answer. -/
theorem exec_parm {notices : List NoticeEntry} (hcli : u.cli = { s.cli with notices := notices }) (hrli : u.rli = s.rli) :
    exec (.parm .console tag n i v w) s =
      .next { u with cli := linkAfter s.cli notices ⟨tag, Mnem.parm.bytes, st⟩ } := by
  have hdo : doParm n i v s = (u, st) := by simp only [doParm, hp, hwrite]
  have hwf : (Request.parm n i v).wellFormed = true := by
    simp only [Request.wellFormed, Bool.and_eq_true, fits8_iff, fits32_iff]
    exact ⟨⟨hn, hi⟩, hv⟩
  exact exec_console (c := .parm .console tag n i v w) (r := .parm n i v) hs hr rfl (Instr.instantsPast_parm hw) hwf
    (congrArg answered hdo) hcli hrli

/-- A PARM whose owner leaves the links alone. -/
theorem exec_parm_plain {bs : List Block} (hu : SameBut bs s u) (hcli : .cli ∉ bs) (hrli : .rli ∉ bs) :
    ∃ t, exec (.parm .console tag n i v w) s = .next t ∧ t.cli = answeredWith s.cli tag .parm st ∧
      SameBut [.cli] u t ∧ SameBut (bs ++ [.cli]) s t := by
  have hlast : SameBut [.cli] u { u with cli := answeredWith s.cli tag .parm st } := by simp [sameBut_iff]
  exact ⟨_, exec_parm hs hr hv hw hn hi hp hwrite (hu .cli hcli) (hu .rli hrli), rfl, hlast, hu.comp hlast⟩

end

/-- A generator's tick that is overdue comes at the time reached (R105, R109). -/
theorem State.overdueTick_spec {s : State} {overdue : Bool}
    (h : overdue = decide (s.tbp.generating ∧ s.tbp.nextTick < s.tbp.now)) :
    s.overdueTick.tbp = { s.tbp with lastTick := if overdue then s.tbp.now else s.tbp.lastTick } ∧
      s.overdueTick.due = (if overdue then s.deliverTick.due else s.due) ∧ SameBut [.tbp, .due] s s.overdueTick := by
  have hframe : SameBut [.tbp, .due] s s.overdueTick := by simp [sameBut_iff]
  by_cases hdue : s.tbp.generating ∧ s.tbp.nextTick < s.tbp.now
  · have hover : overdue = true := h.trans (decide_eq_true hdue)
    have heq : s.overdueTick = s.tickAt s.tbp.now := if_pos hdue
    subst hover
    refine ⟨?_, ?_, hframe⟩
    · rw [heq, State.tickAt_tbp]
      simp
    · rw [heq]
      rfl
  · have hover : overdue = false := h.trans (decide_eq_false hdue)
    have heq : s.overdueTick = s := if_neg hdue
    subst hover
    exact ⟨by rw [heq]; rfl, by rw [heq]; rfl, hframe⟩

theorem rateOfCode?_code (r : Rate) : rateOfCode? r.code = some r := by cases r <;> rfl

theorem rateOfCode?_none {v : Nat} (h : 2 < v) : rateOfCode? v = none := by
  obtain ⟨k, rfl⟩ : ∃ k, v = k + 3 := ⟨v - 3, by omega⟩
  rfl

theorem onOff_toNat (v : Nat) : (onOff v).toNat = if v = 0 then 0 else 1 := by
  by_cases hv : v = 0 <;> simp [onOff, hv]

theorem onOff_eq_true {v : Nat} (h : v ≠ 0) : onOff v = true := by simp [onOff, h]

/-- Guard sizes written: a pass is due where one changes (R130). -/
theorem State.setGuards_eq (s : State) (above below : Nat) :
    s.setGuards above below = { s with ede := { s.ede with
      guardAbove := above
      guardBelow := below
      passesDue := s.ede.passesDue + if above = s.ede.guardAbove ∧ below = s.ede.guardBelow then 0 else 1 } } := by
  by_cases h : above = s.ede.guardAbove ∧ below = s.ede.guardBelow
  · rw [State.setGuards, if_pos h, if_pos h]
    obtain ⟨rfl, rfl⟩ := h
    rfl
  · rw [State.setGuards, if_neg h, if_neg h]
    rfl

/-- Settles O56. -/
theorem parameterWrites : Obligations.ParameterWrites := by
  intro tag v w s hs hr hv hw
  refine ⟨?_, ?_, ?_, ?_, ?_, ?_, fun hsel => ?_, fun hoff hon => ?_, fun overdue hon hzero hover => ?_, fun hkeep => ?_,
    fun r overdue hcode hnew hover => ?_⟩
  · obtain ⟨t, ht, hcli, hlast, hframe⟩ := exec_parm_plain (tag := tag) (n := 1) (i := none) hs hr hv hw (by decide) rfl
      rfl rfl (bs := [.sce]) (by simp [sameBut_iff, State.setSlew]) (by decide) (by decide)
    exact ⟨t, ht, hlast .sce (by decide), hcli, hframe⟩
  · obtain ⟨t, ht, hcli, hlast, hframe⟩ := exec_parm_plain (tag := tag) (n := 2) (i := none) hs hr hv hw (by decide) rfl
      rfl rfl (bs := [.sce]) (by simp [sameBut_iff, State.setSlew]) (by decide) (by decide)
    exact ⟨t, ht, hlast .sce (by decide), hcli, hframe⟩
  · obtain ⟨t, ht, hcli, hlast, hframe⟩ := exec_parm_plain (tag := tag) (n := 3) (i := none) hs hr hv hw (by decide) rfl
      rfl rfl (bs := [.aua]) (by simp [sameBut_iff, State.setHoldOver]) (by decide) (by decide)
    exact ⟨t, ht, hlast .aua (by decide), hcli, hframe⟩
  · obtain ⟨t, ht, hcli, hlast, hframe⟩ := exec_parm_plain (tag := tag) (n := 10) (i := none) hs hr hv hw (by decide) rfl
      rfl rfl (bs := [.tbp]) (by simp [sameBut_iff, State.setConstant]) (by decide) (by decide)
    exact ⟨t, ht, hlast .tbp (by decide), hcli, hframe⟩
  · obtain ⟨t, ht, hcli, hlast, hframe⟩ := exec_parm_plain (tag := tag) (n := 15) (i := none) hs hr hv hw (by decide) rfl
      rfl rfl (bs := [.ede]) (by simp [sameBut_iff]) (by decide) (by decide)
    have hede : t.ede = (s.setGuards (min v 16) s.ede.guardBelow).ede := hlast .ede (by decide)
    refine ⟨t, ht, ?_, hcli, hframe⟩
    rw [hede, State.setGuards_eq]
    simp
  · obtain ⟨t, ht, hcli, hlast, hframe⟩ := exec_parm_plain (tag := tag) (n := 16) (i := none) hs hr hv hw (by decide) rfl
      rfl rfl (bs := [.ede]) (by simp [sameBut_iff]) (by decide) (by decide)
    have hede : t.ede = (s.setGuards s.ede.guardAbove (min v 32)).ede := hlast .ede (by decide)
    refine ⟨t, ht, ?_, hcli, hframe⟩
    rw [hede, State.setGuards_eq]
    simp
  · have hwrite : s.writeParam .refSelect v = (s, taken (if v = 0 then 0 else 1)) := by
      have hsame : s.tbp.refSelect = onOff v := by
        rcases hrs : s.tbp.refSelect with _ | _ <;> simp_all [onOff]
      simp only [State.writeParam, State.setRefSelect, if_pos hsame, onOff_toNat]
    obtain ⟨t, ht, hcli, -, hframe⟩ := exec_parm_plain (tag := tag) (n := 8) (i := none) hs hr hv hw (by decide) rfl
      rfl hwrite (SameBut.refl [] s) (by decide) (by decide)
    exact ⟨t, ht, hcli, hframe⟩
  · have hwrite : s.writeParam .refSelect v =
        ({ s with tbp := { s.tbp with refSelect := true, state := .lost } }.raise .referenceState (.reference .lost),
          taken 1) := by
      simp only [State.writeParam, State.setRefSelect, onOff_eq_true hon, hoff, Bool.false_eq_true, if_false, if_true]
      rfl
    exact ⟨_, exec_parm (tag := tag) (n := 8) (i := none) hs hr hv hw (by decide) rfl rfl hwrite (State.raise_cli _ _ _) rfl,
      rfl, rfl, by simp [sameBut_iff]⟩
  · have hwrite : s.writeParam .refSelect v =
        ({ s with tbp := { s.tbp with refSelect := false, state := .free } }.overdueTick, taken 0) := by
      subst hzero
      simp only [State.writeParam, State.setRefSelect, onOff, hon, ne_eq, not_true_eq_false, decide_false,
        Bool.true_eq_false, Bool.false_eq_true, if_false]
      rfl
    obtain ⟨htbp, hdue, hkept⟩ := State.overdueTick_spec (s := { s with tbp := { s.tbp with refSelect := false, state := .free } })
      (overdue := overdue) (by rw [hover]; exact decide_eq_decide.2 (and_iff_right rfl).symm)
    obtain ⟨t, ht, hcli, hlast, hframe⟩ := exec_parm_plain (tag := tag) (n := 8) (i := none) (bs := [.tbp, .due]) hs hr hv hw
      (by decide) rfl rfl hwrite (SameBut.trans (by simp [sameBut_iff]) hkept) (by decide) (by decide)
    exact ⟨t, ht, (hlast .tbp (by decide)).trans htbp, (hlast .due (by decide)).trans hdue, hcli, hframe⟩
  · have hwrite : s.writeParam .frameRate v = (s, if 2 < v then .badRequest else .ok (u32 v)) := by
      by_cases hbig : 2 < v
      · simp only [State.writeParam, rateOfCode?_none hbig, if_pos hbig]
      · have hcode : v = s.tbp.rate.code := hkeep.resolve_left hbig
        have hrate : rateOfCode? v = some s.tbp.rate := hcode ▸ rateOfCode?_code s.tbp.rate
        simp only [State.writeParam, hrate, State.setRate, if_true, if_neg hbig]
        rfl
    obtain ⟨t, ht, hcli, -, hframe⟩ := exec_parm_plain (tag := tag) (n := 9) (i := none) hs hr hv hw (by decide) rfl
      rfl hwrite (SameBut.refl [] s) (by decide) (by decide)
    exact ⟨t, ht, hcli, hframe⟩
  · have hwrite : s.writeParam .frameRate v = ({ s with tbp := { s.tbp with rate := r } }.overdueTick, taken v) := by
      have hrate : rateOfCode? v = some r := hcode ▸ rateOfCode?_code r
      simp only [State.writeParam, hrate, State.setRate, if_neg (Ne.symm hnew)]
    obtain ⟨htbp, hdue, hkept⟩ := State.overdueTick_spec (s := { s with tbp := { s.tbp with rate := r } })
      (overdue := overdue) (by rw [hover]; exact decide_eq_decide.2 (and_congr_left' decide_eq_true_iff.symm))
    obtain ⟨t, ht, hcli, hlast, hframe⟩ := exec_parm_plain (tag := tag) (n := 9) (i := none) (bs := [.tbp, .due]) hs hr hv hw
      (by decide) rfl rfl hwrite (SameBut.trans (by simp [sameBut_iff]) hkept) (by decide) (by decide)
    exact ⟨t, ht, (hlast .tbp (by decide)).trans htbp, (hlast .due (by decide)).trans hdue, hcli, hframe⟩

/-! ### Ports, outputs, pace limits and window geometry (R80, R91, R116, R144, R152) -/

/-- What a port's new value makes of a state shows in ports, arbiter and stager, and in what those depend on. -/
theorem PortTook.of_same {n : Fin 4} {p : HandPort} {s t u : State} (h : PortTook n p s t) (haua : u.aua = t.aua)
    (hwst : u.wst = t.wst) (hports : u.ports = t.ports) (hsce : u.sce = t.sce) (hscs : u.scs = t.scs)
    (htbp : u.tbp = t.tbp) (hmode : u.msc.mode = t.msc.mode) : PortTook n p s u := by
  have hsnap : u.snapshot = t.snapshot :=
    State.snapshot_congr hsce hscs (by rw [haua]) (by rw [hwst]) (by rw [hwst])
  obtain ⟨hat, hother, honly, ⟨hauth, hkeeps, hchanges⟩, hquiet, hloud⟩ := h
  refine ⟨?_, fun m hm => ?_, ?_, ⟨fun hs => ?_, fun hh => ?_, fun hh => ?_⟩, fun hin => haua.trans (hquiet hin),
    fun hin => ?_⟩
  · rw [← hat]
    exact congrArg (Four.get · n) hports
  · rw [← hother m hm]
    exact congrArg (Four.get · m) hports
  · rw [GrantOnly, haua]
    exact honly
  · exact State.authorityOk_congr (hauth hs) haua hmode hports (by rw [hsce]) (by rw [htbp])
  · rw [hwst]
    exact hkeeps (by rw [← haua, hh])
  · exact (hchanges (by rw [← haua]; exact hh)).of_same rfl hwst hsnap
  · exact (hloud hin).of_same haua hmode hports (by rw [hsce]) (by rw [htbp])

theorem State.out_of_console {u t : State} (h : SameBut [.cli] u t) (o : OutputId) : t.out o = u.out o := by
  cases o
  · exact h .loa (by decide)
  · exact h .lob (by decide)

theorem outputOfCode?_code (o : OutputId) : outputOfCode? o.code = some o := by cases o <;> rfl

theorem OutputId.code_fits (o : OutputId) : optFits fits8 (some (OutputId.code o)) = true := by cases o <;> rfl

theorem optFits_port (n : Fin 4) : optFits fits8 (some n.val) = true := by
  simpa [optFits] using portNumber_lt n

/-- A field of a port's parameters written outside ON_AIR (R91). -/
theorem State.tune_written {s : State} (h : s.msc.mode ≠ .onAir) (n : Fin 4) (p : Shaping) (v : Nat) :
    s.tune n p v = (s.setShaping n p, taken v) := if_neg h

theorem HandPort.withEnable_eq {p q : HandPort} {v : Nat}
    (h : (((p.state = .disabled ∧ v = 0) ∨ (p.state ≠ .disabled ∧ v ≠ 0)) ∧ q = p) ∨
      (p.state ≠ .disabled ∧ v = 0 ∧ q = { p with
        state := .disabled, latch := { p.latch with demand := 0, claim := false }, buttons := Edges.none,
        record := none, expected := none, silence := 0 }) ∨
      (p.state = .disabled ∧ v ≠ 0 ∧ q = { p with
        state := .absent, assembler := .hunt, badRun := 0, silence := 0, expected := none })) :
    p.withEnable (onOff v) = q := by
  rcases h with ⟨⟨hst, hv⟩ | ⟨hst, hv⟩, rfl⟩ | ⟨hst, hv, rfl⟩ | ⟨hst, hv, rfl⟩
  · exact if_pos (by simp [HandPort.enabled, hst, onOff, hv])
  · exact if_pos (by simp [HandPort.enabled, hst, onOff, hv])
  · rw [HandPort.withEnable, if_neg (by simp [HandPort.enabled, hst, onOff, hv]), if_neg (by simp [onOff, hv])]
    rfl
  · rw [HandPort.withEnable, if_neg (by simp [HandPort.enabled, hst, onOff, hv]), if_pos (by simp [onOff, hv])]

/-- A configuration that keeps the enable writes nothing else (R152). -/
theorem Output.configure_enabled {o : Output} {c : OutputConfig} (h : c.enable = o.config.enable) :
    o.configure c = { o with config := c } := by
  rw [Output.configure, h, Bool.and_not_self, if_neg Bool.false_ne_true]

section
variable {tag : Byte} {v w : Nat} {s : State} (hs : s.settled = true) (hr : s.consoleReady = true)
  (hv : v < 4294967296) (hw : w ≤ s.tbp.now)
include hs hr hv hw

/-- A write of one field of an output (R152). -/
theorem exec_parm_output {n : Nat} {o : OutputId} {p : Param} {c : OutputConfig} {x : Nat} (hn : n < 256)
    (hp : paramOf? n (some o.code) = some p) (hwrite : s.writeParam p v = s.writeOutput o c x) :
    ∃ t, exec (.parm .console tag n (some o.code) v w) s = .next t ∧ t.out o = (s.out o).configure c ∧
      t.cli = answeredWith s.cli tag .parm (.ok (u32 x)) ∧ SameBut [outBlock o, .cli] s t := by
  obtain ⟨t, ht, hcli, hlast, hframe⟩ := exec_parm_plain (tag := tag) hs hr hv hw hn (OutputId.code_fits o) hp hwrite
    (s.setOut_sameBut o _) (by cases o <;> decide) (by cases o <;> decide)
  exact ⟨t, ht, (State.out_of_console hlast o).trans (State.setOut_out_same _ _ _), hcli, hframe⟩

/-- A write of the window geometry (R144). -/
theorem exec_parm_geometry {n rows eyeRow : Nat} {p : Param} (hn : n < 256) (hp : paramOf? n none = some p)
    (hwrite : s.writeParam p v = s.writeGeometry rows eyeRow) :
    ∃ t, exec (.parm .console tag n none v w) s = .next t ∧
      (rows = s.wst.rows ∧ eyeRow = s.wst.eyeRow → t.wst = s.wst) ∧
      (¬(rows = s.wst.rows ∧ eyeRow = s.wst.eyeRow) →
        Published { s with wst := { s.wst with rows := rows, eyeRow := eyeRow } } t) ∧
      t.cli = answeredWith s.cli tag .parm (.ok (u32 rows ++ u32 eyeRow)) ∧ SameBut [.wst, .cli] s t := by
  obtain ⟨t, ht, hcli, hlast, hframe⟩ := exec_parm_plain (tag := tag) (i := none) (bs := [.wst]) hs hr hv hw hn rfl hp hwrite
    (by simp [sameBut_iff]) (by decide) (by decide)
  have hwst : t.wst = (s.setGeometry rows eyeRow).wst := hlast .wst (by decide)
  refine ⟨t, ht, fun hsame => ?_, fun hnew => ?_, hcli, hframe⟩
  · rw [hwst, State.setGeometry, if_pos hsame]
  · rw [State.setGeometry, if_neg hnew] at hwst hlast
    refine (State.trigger_published (s := { s with wst := { s.wst with rows := rows, eyeRow := eyeRow } }) rfl).of_same rfl
      hwst ?_
    exact State.snapshot_congr (hlast .sce (by decide)) (hlast .scs (by decide))
      (congrArg Arbiter.holder (hlast .aua (by decide))) (by rw [hwst]) (by rw [hwst])

end

/-- Settles O57. -/
theorem portAndOutputParameters : Obligations.PortAndOutputParameters := by
  intro tag v w n o s hs hr hv hw
  have hport : optFits fits8 (some n.val) = true := optFits_port n
  refine ⟨fun hmode => ⟨?_, ?_, ?_⟩, fun name hname hmode => ?_, fun p q hp hq => ?_, ?_, fun hle => ?_, ?_, ?_, ?_,
    fun name rows eyeRow hname => ?_⟩
  · obtain ⟨t, ht, hcli, hlast, hframe⟩ := exec_parm_plain (tag := tag) (n := 5) (p := .centre n) hs hr hv hw (by decide)
      hport (by simp [paramOf?, indexedParam?, portOf?_val]) (State.tune_written hmode n _ _)
      (s.setShaping_sameBut n _) (by decide) (by decide)
    exact ⟨t, ht, hlast .dsh (by decide), hcli, hframe⟩
  · obtain ⟨t, ht, hcli, hlast, hframe⟩ := exec_parm_plain (tag := tag) (n := 6) (p := .deadband n) hs hr hv hw (by decide)
      hport (by simp [paramOf?, indexedParam?, portOf?_val]) (State.tune_written hmode n _ _)
      (s.setShaping_sameBut n _) (by decide) (by decide)
    exact ⟨t, ht, hlast .dsh (by decide), hcli, hframe⟩
  · obtain ⟨t, ht, hcli, hlast, hframe⟩ := exec_parm_plain (tag := tag) (n := 7) (p := .reverse n) hs hr hv hw (by decide)
      hport (by simp [paramOf?, indexedParam?, portOf?_val]) (State.tune_written hmode n _ _)
      (s.setShaping_sameBut n _) (by decide) (by decide)
    exact ⟨t, ht, hlast .dsh (by decide), by rw [hcli, onOff_toNat]; rfl, hframe⟩
  · obtain ⟨p, hp, hwrite⟩ : ∃ p, paramOf? name (some n.val) = some p ∧ s.writeParam p v = (s, .notPermitted) := by
      simp only [List.mem_cons, List.not_mem_nil, or_false] at hname
      rcases hname with rfl | rfl | rfl
      · exact ⟨.centre n, by simp [paramOf?, indexedParam?, portOf?_val], if_pos hmode⟩
      · exact ⟨.deadband n, by simp [paramOf?, indexedParam?, portOf?_val], if_pos hmode⟩
      · exact ⟨.reverse n, by simp [paramOf?, indexedParam?, portOf?_val], if_pos hmode⟩
    have hlt : name < 256 := by
      simp only [List.mem_cons, List.not_mem_nil, or_false] at hname
      omega
    obtain ⟨t, ht, hcli, -, hframe⟩ := exec_parm_plain (tag := tag) hs hr hv hw hlt hport hp hwrite (SameBut.refl [] s)
      (by decide) (by decide)
    exact ⟨t, ht, hcli, hframe⟩
  · subst hp
    obtain ⟨htook, hcli⟩ := s.takePort_took n q
    have hwrite : s.writeParam (.portEnable n) v = (s.takePort n q, taken (if v = 0 then 0 else 1)) := by
      simp only [State.writeParam, State.setPortEnable, HandPort.withEnable_eq hq, onOff_toNat]
    refine ⟨_, exec_parm (tag := tag) (n := 4) hs hr hv hw (by decide) hport
      (by simp [paramOf?, indexedParam?, portOf?_val]) hwrite hcli (by simp), htook.of_same rfl rfl rfl rfl rfl rfl rfl, rfl, ?_⟩
    simp [sameBut_iff]
  · obtain ⟨t, ht, hout, hcli, hframe⟩ := exec_parm_output (tag := tag) (n := 17) (o := o) (p := .outEnable o) hs hr hv hw
      (by decide) (by simp [paramOf?, indexedParam?, outputOfCode?_code]) rfl
    refine ⟨t, ht, ?_, by rw [hcli, onOff_toNat], hframe⟩
    rw [hout, Output.configure]
    by_cases hv0 : v = 0 <;> by_cases hen : (s.out o).config.enable = true <;> simp [onOff, hv0, hen]
  · obtain ⟨f, hf, hfcode⟩ : ∃ f, framingOfCode? v = some f ∧ f = if v = 0 then Framing.master else .slave := by
      obtain rfl | rfl : v = 0 ∨ v = 1 := by omega
      · exact ⟨.master, rfl, rfl⟩
      · exact ⟨.slave, rfl, rfl⟩
    obtain ⟨t, ht, hout, hcli, hframe⟩ := exec_parm_output (tag := tag) (n := 18) (o := o) (p := .outFraming o)
      (c := { (s.out o).config with framing := f }) (x := v) hs hr hv hw
      (by decide) (by simp [paramOf?, indexedParam?, outputOfCode?_code]) (by simp only [State.writeParam, hf])
    refine ⟨t, ht, ?_, hcli, hframe⟩
    rw [hout, ← hfcode]
    exact Output.configure_enabled rfl
  · obtain ⟨t, ht, hout, hcli, hframe⟩ := exec_parm_output (tag := tag) (n := 19) (o := o) (p := .outMirror o) hs hr hv hw
      (by decide) (by simp [paramOf?, indexedParam?, outputOfCode?_code]) rfl
    refine ⟨t, ht, ?_, by rw [hcli, onOff_toNat], hframe⟩
    rw [hout]
    exact Output.configure_enabled rfl
  · by_cases hraise : s.tbp.paceMax < min v 16384
    · have hwrite : s.writeParam .paceMin v =
          (s.setPace (min v 16384) (min v 16384), takenBoth (min v 16384) (min v 16384)) := if_pos hraise
      obtain ⟨t, ht, hcli, hlast, hframe⟩ := exec_parm_plain (tag := tag) (n := 11) (i := none) (bs := [.tbp]) hs hr hv hw
        (by decide) rfl rfl hwrite (by simp [sameBut_iff, State.setPace]) (by decide) (by decide)
      refine ⟨t, ht, (hlast .tbp (by decide)).trans ?_, by rw [hcli, if_pos hraise]; rfl, hframe⟩
      rw [Nat.max_eq_right hraise.le]
      rfl
    · have hwrite : s.writeParam .paceMin v = (s.setPace (min v 16384) s.tbp.paceMax, taken (min v 16384)) :=
        if_neg hraise
      obtain ⟨t, ht, hcli, hlast, hframe⟩ := exec_parm_plain (tag := tag) (n := 11) (i := none) (bs := [.tbp]) hs hr hv hw
        (by decide) rfl rfl hwrite (by simp [sameBut_iff, State.setPace]) (by decide) (by decide)
      refine ⟨t, ht, (hlast .tbp (by decide)).trans ?_, by rw [hcli, if_neg hraise]; rfl, hframe⟩
      rw [Nat.max_eq_left (Nat.not_lt.1 hraise)]
      rfl
  · obtain ⟨t, ht, hcli, hlast, hframe⟩ := exec_parm_plain (tag := tag) (n := 12) (i := none) (bs := [.tbp]) hs hr hv hw
      (by decide) rfl rfl rfl (by simp [sameBut_iff, State.setPace]) (by decide) (by decide)
    exact ⟨t, ht, hlast .tbp (by decide), hcli, hframe⟩
  · rcases hname with ⟨rfl, rfl, rfl⟩ | ⟨rfl, rfl, rfl⟩
    · exact exec_parm_geometry hs hr hv hw (by decide) rfl rfl
    · exact exec_parm_geometry hs hr hv hw (by decide) rfl rfl

/-! ### Reads of state (R88, R101, R118, R140, R141, R158, R179, R180) -/

/-- A read's owner changes nothing. -/
theorem judge_reads {r : Request} (h : r.mnem = .stat ∨ r.mnem = .pget ∨ r.mnem = .rfsl ∨ r.mnem = .crvr) (link : Link)
    (tag : Byte) (s : State) : ∃ st, judge link tag r.mnem (some r) s = (s, some st) := by
  have hserve : ∃ st, serve link tag r s = (s, some st) := by
    cases r with
    | stat selector index =>
      show ∃ st, answered (doStat link selector index s) = (s, some st)
      unfold doStat
      split
      · exact ⟨_, rfl⟩
      · exact ⟨_, rfl⟩
    | pget name index =>
      show ∃ st, answered (doPget name index s) = (s, some st)
      unfold doPget
      split
      · exact ⟨_, rfl⟩
      · exact ⟨_, rfl⟩
    | rfsl => exact ⟨_, rfl⟩
    | crvr port =>
      show ∃ st, answered (doCrvr port s) = (s, some st)
      unfold doCrvr
      split
      · exact ⟨_, rfl⟩
      · exact ⟨_, rfl⟩
    | _ => simp [Request.mnem] at h
  obtain ⟨st, hserve⟩ := hserve
  unfold judge
  split
  · exact ⟨_, rfl⟩
  · split
    · exact ⟨_, rfl⟩
    · by_cases hw : r.wellFormed = true
      · exact ⟨st, by simp only [hw, if_true, hserve]⟩
      · exact ⟨_, if_neg hw⟩

/-- STAT is served on both links in every mode (R173, R175, R180). -/
theorem exec_stat {link : Link} {tag : Byte} {selector : Nat} {index : Option Nat} {s : State} {data : List Byte}
    (hs : s.settled = true) (hfree : (s.link link).free = true) (hsel : selector < 256)
    (hindex : optFits fits8 index = true) (hdata : s.status? link selector index = some data) :
    ∃ t, exec (.stat link tag selector index) s = .next t ∧
      t.link link = answeredWith (s.link link) tag .stat (.ok data) := by
  have hw : (Request.stat selector index).wellFormed = true := by
    simp only [Request.wellFormed, Bool.and_eq_true, fits8_iff]
    exact ⟨hsel, hindex⟩
  have hdo : doStat link selector index s = (s, .ok data) := by simp only [doStat, hdata]
  have hjudge : judge link tag (Request.stat selector index).mnem (some (.stat selector index)) s = (s, some (.ok data)) := by
    simp only [judge, Request.mnem, ne_eq, not_true_eq_false, and_false, if_false,
      rundownPermitted, Bool.true_eq_false, hw, if_true]
    exact congrArg answered hdo
  obtain ⟨t, ht, hlink, -⟩ := exec_judged (c := .stat link tag selector index) hs rfl hfree
    (instantsPast_of_ne (by simp)) hjudge
  exact ⟨t, ht, hlink⟩

theorem exec_pget {tag : Byte} {name : Nat} {index : Option Nat} {p : Param} {s : State} (hs : s.settled = true)
    (hr : s.consoleReady = true) (hname : name < 256) (hindex : optFits fits8 index = true)
    (hp : paramOf? name index = some p) :
    ∃ t, exec (.pget .console tag name index) s = .next t ∧
      t.cli = answeredWith s.cli tag .pget (.ok (s.readParam p)) ∧ SameBut [.cli] s t := by
  have hw : (Request.pget name index).wellFormed = true := by
    simp only [Request.wellFormed, Bool.and_eq_true, fits8_iff]
    exact ⟨hname, hindex⟩
  have hdo : doPget name index s = (s, .ok (s.readParam p)) := by simp only [doPget, hp]
  exact exec_unchanged (c := .pget .console tag name index) (link := .console) hs hr rfl (instantsPast_of_ne (by simp))
    (by simp) hw (congrArg answered hdo)

theorem holderCode_eq (h : Option Source) : holderCode h = (h.map Source.number).getD 255 := by cases h <;> rfl

theorem cursorCode_eq (c : Option Nat) : cursorCode c = c.getD 65535 := by cases c <;> rfl

/-- The eight bytes that have bit k of the set of page slots at its place are the set (R183). -/
theorem pageSet_unique {page : Page} {bytes : List Byte} (hlen : bytes.length = 8)
    (hbits : ∀ k, k < 64 → (bytes.getD (k / 8) 0).getLsbD (k % 8) = (page.getD k none).isSome) : bytes = pageSet page := by
  have hset : (pageSet page).length = 8 := rfl
  refine List.ext_getElem (hlen.trans hset.symm) fun m hm hm' => BitVec.eq_of_getLsbD_eq fun j hj => ?_
  have hat := hbits (8 * m + j) (by omega)
  have hat' := pageSet_bit page (8 * m + j) (by omega)
  rw [show (8 * m + j) / 8 = m by omega, show (8 * m + j) % 8 = j by omega] at hat hat'
  rw [List.getD_eq_getElem _ _ hm] at hat
  rw [List.getD_eq_getElem _ _ hm'] at hat'
  rw [hat, hat']

/-- Settles O58. -/
theorem readsReportState : Obligations.ReadsReportState := by
  refine ⟨fun c link tag r s hs hc hfree hread => ?_, fun link tag n o l p x s hs hl hfree hp hx => ?_,
    fun tag n o src k e s hs hr he hk => ?_⟩
  · obtain ⟨st, hjudge⟩ := judge_reads hread link tag s
    have hi : Instr.instantsPast c s.tbp.now := by
      refine Instr.instantsPast_of_request hc ?_
      rintro n i v w rfl
      obtain ⟨-, -, rfl⟩ : link = link ∧ tag = tag ∧ Request.parm n i v = r := by simpa [Instr.request?] using hc
      simp [Request.mnem] at hread
    obtain ⟨t, ht, hlink, hframe⟩ := exec_judged hs hc hfree hi hjudge
    exact ⟨t, st, ht, hlink, hframe⟩
  · subst hl hp hx
    refine ⟨?_, ?_, ?_, ?_, ?_, ?_⟩
    · obtain ⟨t, ht, hlink⟩ := exec_stat (tag := tag) (selector := 0) (index := none) hs hfree (by decide) rfl rfl
      refine ⟨t, ht, ?_⟩
      rw [hlink]
      simp only [State.partStatus, storeStatus, State.scrollStatus, arbiterStatus, playerStatus, linkStatus, holderCode_eq,
        cursorCode_eq, List.append_assoc]
      rfl
    · obtain ⟨t, ht, hlink⟩ := exec_stat (tag := tag) (selector := 1) (index := some n.val) hs hfree (by decide)
        (optFits_port n) (by simp only [State.status?, portOf?_val]; rfl)
      refine ⟨t, ht, ?_⟩
      rw [hlink]
      simp only [HandPort.status, counterStatus, latchStatus, HandPort.enabled, List.append_assoc]
      rfl
    · obtain ⟨t, ht, hlink⟩ := exec_stat (tag := tag) (selector := 2) (index := some o.code) hs hfree (by decide)
        (OutputId.code_fits o) (by simp only [State.status?, outputOfCode?_code]; rfl)
      exact ⟨t, ht, hlink⟩
    · intro written slot hwritten hslot
      obtain ⟨hclosed, hopen⟩ := hslot
      have hpage (page : Page) : written page = pageSet page := pageSet_unique (hwritten page).1 (hwritten page).2
      have hslots : EditSlot.status = slot := by
        funext y
        cases y with
        | closed => exact hclosed.symm
        | opened e k page =>
          rw [(hopen e k page).1, hpage]
          simp [EditSlot.status, EditSlot.code, EditSlot.kind?, EditSlot.count?, EditSlot.page?, opt, u8]
        | copying e k page =>
          rw [(hopen e k page).2, hpage]
          simp [EditSlot.status, EditSlot.code, EditSlot.kind?, EditSlot.count?, EditSlot.page?, opt, u8]
      obtain ⟨t, ht, hlink⟩ := exec_stat (tag := tag) (selector := 3) (index := none) hs hfree (by decide) rfl rfl
      refine ⟨t, ht, ?_⟩
      rw [hlink, EditEngine.status, hslots]
      rfl
    · obtain ⟨t, ht, hlink⟩ := exec_stat (tag := tag) (selector := 4) (index := none) hs hfree (by decide) rfl rfl
      refine ⟨t, ht, ?_⟩
      rw [hlink]
      rfl
    · rintro rfl hmode
      have hr : s.linkReady .console = true := by
        simp only [State.linkReady, Bool.and_eq_true, decide_eq_true_eq]
        exact ⟨hfree, hmode⟩
      obtain ⟨t, ht, hlink, -⟩ := exec_unchanged (c := .rfsl .console tag) (link := .console) (r := .rfsl) hs hr rfl
        (instantsPast_of_ne (by simp)) (by simp) rfl rfl
      exact ⟨t, ht, hlink⟩
  · intro x hx
    obtain ⟨p, hname, hindex, hp, hdata⟩ : ∃ p, x.1 < 256 ∧ optFits fits8 x.2.1 = true ∧ paramOf? x.1 x.2.1 = some p ∧
        s.readParam p = x.2.2 := by
      have hsrc : optFits fits8 (some src.number) = true := (fits8_iff _).2 (Source.number_lt src)
      have hlock : s.ede.locks.getD k LockEntry.reset = e := by
        rw [List.getD_eq_getElem?_getD, he, Option.getD_some]
      revert x hx
      simp only [List.forall_mem_cons]
      refine ⟨⟨.accel, by decide, rfl, rfl, rfl⟩, ⟨.decel, by decide, rfl, rfl, rfl⟩, ⟨.holdOver, by decide, rfl, rfl, rfl⟩,
        ⟨.portEnable n, by decide, optFits_port n, congrArg (Option.map Param.portEnable) (portOf?_val n), ?_⟩,
        ⟨.centre n, by decide, optFits_port n, congrArg (Option.map Param.centre) (portOf?_val n), rfl⟩,
        ⟨.deadband n, by decide, optFits_port n, congrArg (Option.map Param.deadband) (portOf?_val n), rfl⟩,
        ⟨.reverse n, by decide, optFits_port n, congrArg (Option.map Param.reverse) (portOf?_val n), rfl⟩,
        ⟨.refSelect, by decide, rfl, rfl, rfl⟩, ⟨.frameRate, by decide, rfl, rfl, rfl⟩,
        ⟨.autoConstant, by decide, rfl, rfl, rfl⟩, ⟨.paceMin, by decide, rfl, rfl, rfl⟩,
        ⟨.paceMax, by decide, rfl, rfl, rfl⟩, ⟨.windowRows, by decide, rfl, rfl, rfl⟩,
        ⟨.eyeRow, by decide, rfl, rfl, rfl⟩, ⟨.guardAbove, by decide, rfl, rfl, rfl⟩,
        ⟨.guardBelow, by decide, rfl, rfl, rfl⟩,
        ⟨.outEnable o, by decide, OutputId.code_fits o, congrArg (Option.map Param.outEnable) (outputOfCode?_code o), rfl⟩,
        ⟨.outFraming o, by decide, OutputId.code_fits o, congrArg (Option.map Param.outFraming) (outputOfCode?_code o), rfl⟩,
        ⟨.outMirror o, by decide, OutputId.code_fits o, congrArg (Option.map Param.outMirror) (outputOfCode?_code o), rfl⟩,
        ⟨.source src, by decide, hsrc, congrArg (Option.map Param.source) (sourceOfNumber?_number src), rfl⟩,
        ⟨.threshold, by decide, rfl, rfl, rfl⟩, ⟨.lockEntry ⟨k, hk⟩, by decide, ?_, ?_, ?_⟩, by simp⟩
      · simp only [State.readParam, HandPort.enabled]
        by_cases hst : (s.port n).state = .disabled <;> simp [hst]
      · simp [optFits]
        omega
      · exact congrArg (Option.map Param.lockEntry) (dif_pos hk)
      · simp only [State.readParam, hlock]
        rfl
    obtain ⟨t, ht, hcli, hframe⟩ := exec_pget (tag := tag) hs hr hname hindex hp
    exact ⟨t, ht, by rw [hcli, hdata], hframe⟩

end Sys2Proof.Machine

/-! PROOFS. The settings image and its words (R163, R164, R186), saves (R166, R167), and the reset line (R165, R182). -/

namespace Sys2Proof.Machine

/-! ### Words written to the settings memory (R166, R186) -/

/-- A run of words written from a word on: each at its place, the others as they were. -/
theorem memWord_writeRun (fields : List Word16) (m : List Host.Cell) (first j : Nat) (hw : memWf m = true) :
    memWord (((fields.zipIdx first).map fun x => (x.2, x.1)).foldl (fun m w => memWriteWord m w.1 w.2) m) j =
      if first ≤ j ∧ j < first + fields.length then fields.getD (j - first) 0 else memWord m j := by
  induction fields generalizing m first with
  | nil =>
    rw [if_neg (by simp)]
    rfl
  | cons x rest ih =>
    simp only [List.zipIdx_cons, List.map_cons, List.foldl_cons]
    rw [ih _ (first + 1) (memWriteWord_wf m first x hw), memWord_memWriteWord m first j x hw, List.length_cons]
    by_cases hj : j = first
    · subst hj
      rw [if_neg (by omega), if_pos rfl, if_pos (by omega), Nat.sub_self]
      rfl
    · rw [if_neg hj]
      by_cases hin : first + 1 ≤ j ∧ j < first + 1 + rest.length
      · rw [if_pos hin, if_pos (by omega), show j - first = (j - (first + 1)) + 1 by omega, List.getD_cons_succ]
      · rw [if_neg hin, if_neg (by omega)]

theorem memWriteWords_eq (words : List Word16) (m : List Host.Cell) (first : Nat) :
    memWriteWords m first words =
      ((words.zipIdx first).map fun x => (x.2, x.1)).foldl (fun m w => memWriteWord m w.1 w.2) m := by
  induction words generalizing m first with
  | nil => rfl
  | cons x rest ih =>
    simp only [memWriteWords, List.zipIdx_cons, List.map_cons, List.foldl_cons]
    exact ih _ _

/-- The indices of a save's field words (R166). -/
theorem fieldWrites_index {fields : List Word16} {w : Nat × Word16} (h : w ∈ (fields.zipIdx 0).map fun x => (x.2, x.1)) :
    w.1 < fields.length := by
  obtain ⟨x, hx, rfl⟩ := List.mem_map.1 h
  simpa using List.snd_lt_of_mem_zipIdx hx

section
variable {fields : List Word16} (hlen : fields.length = 179)
include hlen

/-- A save under way leaves a check word one too great (R166). -/
theorem memAfterWrites_check {n : Nat} (h1 : 1 ≤ n) (h2 : n ≤ 180) {mem : List Host.Cell} (hw : memWf mem = true) :
    memWord (memAfterWrites mem fields n) 179 = checkSum fields + 1 := by
  obtain ⟨k, rfl⟩ : ∃ k, n = k + 1 := ⟨n - 1, by omega⟩
  have htake : (saveWrites fields).take (k + 1) =
      (179, checkSum fields + 1) :: ((fields.zipIdx 0).map fun x => (x.2, x.1)).take k := by
    rw [saveWrites, List.cons_append, List.take_succ_cons, List.take_append_of_le_length (by simp [hlen]; omega)]
    rfl
  have hnone : (((fields.zipIdx 0).map fun x => (x.2, x.1)).take k).reverse.find? (fun w => w.1 = 179) = none := by
    refine List.find?_eq_none.2 fun w hw => ?_
    have := fieldWrites_index (List.mem_of_mem_take (List.mem_reverse.1 hw))
    simp
    omega
  rw [memAfterWrites, htake, List.foldl_cons, memWord_foldl _ _ _ (memWriteWord_wf _ _ _ hw), hnone,
    memWord_memWriteWord _ _ _ _ hw, if_pos rfl]
  rfl

/-- A save that writes every word leaves the image with its check word (R166). -/
theorem memAfterWrites_image {mem : List Host.Cell} (hw : memWf mem = true) :
    readImage (memAfterWrites mem fields 181) = imageOf fields := by
  have hall : (saveWrites fields).take 181 = saveWrites fields := List.take_of_length_le (by simp [saveWrites, hlen])
  have hwf := memWriteWord_wf mem 179 (checkSum fields + 1) hw
  have hword (i : Nat) (hi : i < 180) : memWord (memAfterWrites mem fields 181) i = (imageOf fields).getD i 0 := by
    rw [memAfterWrites, hall, saveWrites, List.foldl_append, List.foldl_cons, List.foldl_cons, List.foldl_nil]
    dsimp only [Config.fieldWords]
    rw [memWord_memWriteWord _ _ _ _ (foldl_memWriteWord_wf _ _ hwf)]
    by_cases hi179 : i = 179
    · subst hi179
      rw [if_pos rfl]
      simp [imageOf, hlen]
    · rw [if_neg hi179, memWord_writeRun _ _ _ _ hwf, if_pos (by omega), imageOf, List.getD_append _ _ _ _ (by omega)]
      rfl
  refine List.ext_getElem (by simp [readImage, imageOf, hlen]) fun i hi hi' => ?_
  have hi180 : i < 180 := by simpa [readImage] using hi
  rw [← List.getD_eq_getElem _ 0 hi', ← hword i hi180]
  simp [readImage]

/-- A save writes no byte past the image (R166). -/
theorem memAfterWrites_past (mem : List Host.Cell) (n : Nat) {a : Nat} (ha : 360 ≤ a) :
    memRead (memAfterWrites mem fields n) a = memRead mem a := by
  refine memRead_foldl_other _ _ _ fun w hw => ?_
  have hmem := List.mem_of_mem_take hw
  have hle : w.1 ≤ 179 := by
    simp only [saveWrites, List.cons_append, List.mem_cons, List.mem_append, List.mem_map, List.not_mem_nil, or_false] at hmem
    rcases hmem with rfl | ⟨x, hx, rfl⟩ | rfl
    · rfl
    · have := fieldWrites_index (List.mem_map_of_mem (f := fun x => (x.2, x.1)) hx)
      omega
    · rfl
  omega

end

/-- An image with its check word is good (R163). -/
theorem imageGood_imageOf {fields : List Word16} (hlen : fields.length = 179) : imageGood (imageOf fields) = true := by
  simp [imageGood, imageOf, hlen, Config.fieldWords]

/-! ### The reset line (R165, R182) -/

theorem LinkIface.reset_pump (kinds : List NoticeKind) : (LinkIface.reset kinds).pump = LinkIface.reset kinds := by
  refine LinkIface.pump_idle rfl (List.find?_eq_none.2 fun e he => ?_)
  obtain ⟨k, -, rfl⟩ := List.mem_map.1 he
  exact Bool.false_ne_true

theorem exec_resetLine (w : Nat) (s : State) :
    exec (.resetLine w) s = .next (State.resetAt s.tbp.now (s.memAtReset w) s.pending) := by
  have hset : (State.resetAt s.tbp.now (s.memAtReset w) s.pending).settled = true :=
    (State.settled_iff _).2 ⟨LinkIface.reset_pump _, LinkIface.reset_pump _⟩
  exact finish_settled hset

/-- Settles O46. -/
theorem resetLineAndRelease : Obligations.ResetLineAndRelease := by
  refine ⟨fun w s => ⟨_, exec_resetLine w s, rfl, rfl, rfl, rfl, fun n => ?_, fun n => ?_, rfl, rfl, rfl, rfl, rfl, rfl, rfl,
    rfl, rfl, fun hsave => if_neg hsave, fun hmem hsave hlen => ?_⟩, fun instant s hs hline hload => ?_⟩
  · exact Four.get_same _ n
  · exact (Four.get_same _ n).trans rfl
  · have hreset : (State.resetAt s.tbp.now (s.memAtReset w) s.pending).mem =
        memAfterWrites s.mem s.msc.snapshot (clampTo 1 181 w) := if_pos hsave
    rw [hreset]
    refine ⟨fun hw => ?_, fun hw => ?_, fun a ha => memAfterWrites_past hlen _ _ ha⟩
    · rw [show clampTo 1 181 w = max 1 (min w 181) from rfl]
      exact memAfterWrites_check hlen (by omega) (by omega) hmem
    · rw [show clampTo 1 181 w = 181 by simp only [clampTo]; omega]
      exact memAfterWrites_image hlen hmem
  · have hnext : exec (.resetRelease instant) s = finish { s.reach instant with
        msc := { s.msc with resetLine := false }
        tbp := { s.tbp with lastTick := max s.tbp.now instant, now := max s.tbp.now instant } } := if_pos hline
    refine ⟨_, hnext.trans (finish_of_links hs rfl rfl), rfl, ?_, rfl, by simp [sameBut_iff, State.reach]⟩
    simp [Controller.loading, hload]

/-! ### Saves (R166, R167) -/

/-- The end of a save on the links (R166). -/
theorem finish_endSave (s : State) (image : ImageState) (mem : List Host.Cell) (outcome : SettingsOutcome) :
    ∃ t, finish (s.endSave image mem outcome) = .next t ∧ t.mem = mem ∧
      t.msc = { s.msc with storeOp := .idle, image := image, snapshot := [] } ∧
      t.cli = s.cli.tabled (raiseIn s.cli.notices .settingsState (.settings outcome)) ∧
      SameBut [.msc, .mem, .cli, .rli] s t := by
  refine ⟨_, rfl, rfl, rfl, rfl, ?_⟩
  have hend : SameBut [.msc, .mem, .cli] s (s.endSave image mem outcome) := by simp [sameBut_iff, State.endSave]
  exact (hend.mono (by simp)).trans ((State.settle_sameBut _).mono (by simp))

section
variable {s : State} (hsave : s.msc.storeOp = .save)
include hsave

theorem exec_saveCompletion_good {back : Option (List Word16)} (hback : back.getD s.msc.snapshot = s.msc.snapshot) :
    exec (.saveCompletion back) s = finish (s.endSave .valid (memAfterWrites s.mem s.msc.snapshot 181) .saved) := by
  show execSaveCompletion back s = _
  rw [execSaveCompletion, if_pos hsave, if_pos hback]

theorem exec_saveCompletion_bad {back : List Word16} (hback : back ≠ s.msc.snapshot) :
    exec (.saveCompletion (some back)) s =
      finish (s.endSave .invalid (memAfterBadReadBack s.mem s.msc.snapshot back) .saveFailed) := by
  show execSaveCompletion (some back) s = _
  rw [execSaveCompletion, if_pos hsave, if_neg (show ¬ (some back).getD s.msc.snapshot = s.msc.snapshot from hback)]
  rfl

end

/-- A save whose words read back wrong leaves a check word one too great, and writes no byte past the image (R166). -/
theorem memAfterBadReadBack_check {mem : List Host.Cell} {fields back : List Word16} (hmem : memWf mem = true)
    (hlen : fields.length = 179) (hback : back.length = 179) :
    memWord (memAfterBadReadBack mem fields back) 179 = checkSum fields + 1 ∧
      ∀ a, 360 ≤ a → memRead (memAfterBadReadBack mem fields back) a = memRead mem a := by
  have htake : back.take Config.fieldWords = back := List.take_of_length_le (by simp [hback, Config.fieldWords])
  rw [memAfterBadReadBack, htake, memWriteWords_eq]
  refine ⟨?_, fun a ha => ?_⟩
  · rw [memWord_writeRun _ _ _ _ (memAfterWrites_wf _ _ _ hmem), if_neg (by omega)]
    exact memAfterWrites_check hlen (by decide) (by decide) hmem
  · rw [memRead_foldl_other]
    · exact memAfterWrites_past hlen _ _ ha
    · intro w hw
      have := fieldWrites_index hw
      omega

/-- Settles O49. -/
theorem saveStartsAndEnds : Obligations.SaveStartsAndEnds := by
  refine ⟨fun tag s hs hr hmode hop => ⟨?_, ?_⟩, fun written s hmem hsave hlen =>
    ⟨fun back hback => ?_, fun back hback hblen => ?_, ?_⟩⟩
  · have hdo : doSave s = ({ s with msc := { s.msc with
        storeOp := .save, image := .invalid, snapshot := s.settings.words } }, .ok []) := by
      rw [doSave, if_neg (by simp [hmode]), if_neg (by simp [hop])]
    exact ⟨_, exec_console_plain (c := .save .console tag) (r := .save) hs hr rfl (instantsPast_of_ne (by simp)) rfl
      (congrArg answered hdo) rfl rfl, rfl, rfl, by simp [sameBut_iff]⟩
  · have hdo : doLoad s = (s.setStore s.msc.image .load, .ok []) := by
      rw [doLoad, if_neg (by simp [hmode]), if_neg (by simp [hop])]
    exact ⟨_, exec_console_plain (c := .load .console tag) (r := .load) hs hr rfl (instantsPast_of_ne (by simp)) rfl
      (congrArg answered hdo) rfl rfl, rfl, rfl, by simp [sameBut_iff, State.setStore]⟩
  · have hsame : back.getD s.msc.snapshot = s.msc.snapshot := by rcases hback with rfl | rfl <;> rfl
    obtain ⟨t, ht, htmem, hmsc, hcli, hframe⟩ := finish_endSave s .valid (memAfterWrites s.mem s.msc.snapshot 181) .saved
    have himage : readImage t.mem = imageOf s.msc.snapshot := htmem ▸ memAfterWrites_image hlen hmem
    refine ⟨t, (exec_saveCompletion_good hsave hsame).trans ht, himage, himage ▸ imageGood_imageOf hlen, fun a ha => ?_,
      hmsc, hcli, hframe⟩
    rw [htmem]
    exact memAfterWrites_past hlen _ _ ha
  · obtain ⟨t, ht, htmem, hmsc, hcli, hframe⟩ :=
      finish_endSave s .invalid (memAfterBadReadBack s.mem s.msc.snapshot back) .saveFailed
    obtain ⟨hcheck, hpast⟩ := memAfterBadReadBack_check hmem hlen hblen
    rw [← htmem] at hcheck hpast
    exact ⟨t, (exec_saveCompletion_bad hsave hback).trans ht, hcheck, hpast, hmsc, hcli, hframe⟩
  · obtain ⟨t, ht, htmem, hmsc, hcli, hframe⟩ :=
      finish_endSave s .invalid (memAfterWrites s.mem s.msc.snapshot (min written 180)) .saveFailed
    have hnext : exec (.saveTimeout written) s =
        finish (s.endSave .invalid (memAfterWrites s.mem s.msc.snapshot (min written 180)) .saveFailed) := if_pos hsave
    refine ⟨t, hnext.trans ht, ?_, fun h1 => ?_, fun a ha => ?_, hmsc, hcli, hframe⟩
    · rintro rfl
      exact htmem
    · rw [htmem]
      exact memAfterWrites_check hlen (by omega) (by omega) hmem
    · rw [htmem]
      exact memAfterWrites_past hlen _ _ ha

/-! ### The settings image (R163, R164, R186) -/

/-- The words after the ports' (R186). -/
def Settings.tailFields (v : Settings) : List Nat :=
  sourceWords v.console ++ v.hand.toList.flatMap sourceWords ++ sourceWords v.auto ++
    [v.threshold, v.holdOverValue, v.accel, v.decel, v.paceMin, v.paceMax, v.constant, v.rows, v.eyeRow,
      v.guardAbove, v.guardBelow] ++
    outputWords v.outA ++ outputWords v.outB ++ [v.rate.code, v.refSelect.toNat]

theorem toNat_ne_zero (b : Bool) : decide (b.toNat ≠ 0) = b := by cases b <;> rfl

theorem portWords_length (enable : Bool) (p : Shaping) : (portWords enable p).length = 37 := by simp [portWords]

/-- The words of the ports stand one port after the other, and the rest after them (R186). -/
theorem Settings.fields_eq (v : Settings) :
    v.fields = portWords (v.portEnable.get 0) (v.shaping.get 0) ++ (portWords (v.portEnable.get 1) (v.shaping.get 1) ++
      (portWords (v.portEnable.get 2) (v.shaping.get 2) ++ (portWords (v.portEnable.get 3) (v.shaping.get 3) ++
        v.tailFields))) := by
  simp only [Settings.fields, Settings.tailFields, List.append_assoc]
  rfl

theorem Settings.fields_length (v : Settings) : v.fields.length = 179 := by
  rw [Settings.fields_eq]
  simp [portWords_length, Settings.tailFields, sourceWords, outputWords, Four.toList]

theorem getD_append_skip {a l : List Nat} {n k : Nat} (ha : a.length = n) : (a ++ l).getD (n + k) 0 = l.getD k 0 := by
  rw [List.getD_append_right _ _ _ _ (by omega), ha, Nat.add_sub_cancel_left]

/-- Word j of port p stands at 37p + j (R186). -/
theorem Settings.fields_port (v : Settings) (p : Fin 4) {j : Nat} (hj : j < 37) :
    v.fields.getD (37 * p.val + j) 0 = (portWords (v.portEnable.get p) (v.shaping.get p)).getD j 0 := by
  have hlen (n : Fin 4) : (portWords (v.portEnable.get n) (v.shaping.get n)).length = 37 := portWords_length _ _
  have hfirst (n : Fin 4) (l : List Nat) : (portWords (v.portEnable.get n) (v.shaping.get n) ++ l).getD j 0 =
      (portWords (v.portEnable.get n) (v.shaping.get n)).getD j 0 := List.getD_append _ _ _ _ (by rw [hlen]; exact hj)
  rw [Settings.fields_eq]
  match p with
  | 0 => rw [show 37 * (0 : Fin 4).val + j = j by simp, hfirst]
  | 1 => rw [show 37 * (1 : Fin 4).val + j = 37 + j by simp, getD_append_skip (hlen 0), hfirst]
  | 2 =>
    rw [show 37 * (2 : Fin 4).val + j = 37 + (37 + j) by simp; omega, getD_append_skip (hlen 0), getD_append_skip (hlen 1),
      hfirst]
  | 3 =>
    rw [show 37 * (3 : Fin 4).val + j = 37 + (37 + (37 + j)) by simp; omega, getD_append_skip (hlen 0),
      getD_append_skip (hlen 1), getD_append_skip (hlen 2), hfirst]

/-- The words after the ports' stand from 148 on (R186). -/
theorem Settings.fields_tail (v : Settings) (k : Nat) : v.fields.getD (148 + k) 0 = v.tailFields.getD k 0 := by
  rw [Settings.fields_eq, show 148 + k = 37 + (37 + (37 + (37 + k))) by omega, getD_append_skip (portWords_length _ _),
    getD_append_skip (portWords_length _ _), getD_append_skip (portWords_length _ _), getD_append_skip (portWords_length _ _)]

theorem portWords_lt (enable : Bool) {p : Shaping} (hp : p.ok = true) : ∀ x ∈ portWords enable p, x < 65536 := by
  obtain ⟨hcentre, hdead, -, -⟩ := p.ok_iff.1 hp
  have hbit (b : Bool) : b.toNat < 65536 := by cases b <;> decide
  have hpoint (k : Nat) : curvePoint p k < 65536 := (curvePoint_le hp k).trans_lt (by decide)
  simp only [portWords, List.forall_mem_append, List.forall_mem_cons, List.forall_mem_map]
  exact ⟨⟨hbit _, by omega, by omega, hbit _, by simp⟩, fun k _ => hpoint k⟩

theorem sourceWords_lt {e : SourceEntry} (he : e.ok = true) : ∀ x ∈ sourceWords e, x < 65536 := by
  have hprio : e.priority ≤ 15 := of_decide_eq_true he
  have hbit : e.enable.toNat < 65536 := by cases e.enable <;> decide
  simp only [sourceWords, List.forall_mem_cons]
  exact ⟨hbit, by omega, by simp⟩

theorem outputWords_lt (c : OutputConfig) : ∀ x ∈ outputWords c, x < 65536 := by
  have hbit (b : Bool) : b.toNat < 65536 := by cases b <;> decide
  have hframing : c.framing.code < 65536 := by cases c.framing <;> decide
  simp only [outputWords, List.forall_mem_cons]
  exact ⟨hbit _, hframing, hbit _, by simp⟩

theorem Settings.inRange_iff (v : Settings) : v.inRange = true ↔
    (∀ n, (v.shaping.get n).ok = true) ∧ v.console.ok = true ∧ (∀ n, (v.hand.get n).ok = true) ∧ v.auto.ok = true ∧
      v.threshold ≤ 15 ∧ v.holdOverValue ≤ 255 ∧ 1 ≤ v.accel ∧ v.accel ≤ 4096 ∧ 1 ≤ v.decel ∧ v.decel ≤ 4096 ∧
      v.paceMin ≤ v.paceMax ∧ v.paceMax ≤ 16384 ∧ v.constant ≤ 16384 ∧ 1 ≤ v.rows ∧ v.rows ≤ 24 ∧ v.eyeRow < v.rows ∧
      v.guardAbove ≤ 16 ∧ v.guardBelow ≤ 32 := by
  simp only [Settings.inRange, Bool.and_eq_true, decide_eq_true_eq, Four.all_toList, and_assoc]
  rfl

/-- Settings in range fit in words of 16 bits (R163). -/
theorem Settings.fields_lt {v : Settings} (hv : v.inRange = true) : ∀ x ∈ v.fields, x < 65536 := by
  obtain ⟨hshape, hconsole, hhand, hauto, hthr, hhold, -, haccel, -, hdecel, hpace, hmax, hconst, -, hrows, heye, habove,
    hbelow⟩ := v.inRange_iff.1 hv
  have hrate : v.rate.code < 65536 := by cases v.rate <;> decide
  have href : v.refSelect.toNat < 65536 := by cases v.refSelect <;> decide
  have hhands : ∀ x ∈ v.hand.toList.flatMap sourceWords, x < 65536 := by
    intro x hx
    obtain ⟨e, he, hx⟩ := List.mem_flatMap.1 hx
    obtain ⟨n, rfl⟩ : ∃ n, v.hand.get n = e := by
      simp only [Four.toList, List.mem_cons, List.not_mem_nil, or_false] at he
      rcases he with rfl | rfl | rfl | rfl
      · exact ⟨0, rfl⟩
      · exact ⟨1, rfl⟩
      · exact ⟨2, rfl⟩
      · exact ⟨3, rfl⟩
    exact sourceWords_lt (hhand n) x hx
  simp only [Settings.fields_eq, Settings.tailFields, List.forall_mem_append]
  refine ⟨portWords_lt _ (hshape 0), portWords_lt _ (hshape 1), portWords_lt _ (hshape 2), portWords_lt _ (hshape 3),
    ⟨⟨⟨⟨⟨sourceWords_lt hconsole, hhands⟩, sourceWords_lt hauto⟩, ?_⟩, outputWords_lt _⟩, outputWords_lt _⟩, ?_⟩
  · simp only [List.forall_mem_cons]
    refine ⟨?_, ?_, ?_, ?_, ?_, ?_, ?_, ?_, ?_, ?_, ?_, by simp⟩ <;> omega
  · simp only [List.forall_mem_cons]
    exact ⟨hrate, href, by simp⟩

theorem wordAt_imageOf {v : Settings} (hv : v.inRange = true) {i : Nat} (hi : i < 179) :
    wordAt (imageOf v.words) i = v.fields.getD i 0 := by
  have hlen := v.fields_length
  have hfield : v.fields.getD i 0 < 65536 := by
    rw [List.getD_eq_getElem _ _ (by omega)]
    exact Settings.fields_lt hv _ (List.getElem_mem _)
  have hword : (imageOf v.words).getD i 0 = BitVec.ofNat 16 (v.fields.getD i 0) := by
    rw [imageOf, List.getD_append _ _ _ _ (by simp [Settings.words]; omega), Settings.words,
      List.getD_eq_getElem _ _ (by simp; omega), List.getElem_map, List.getD_eq_getElem _ _ (by omega)]
  rw [wordAt, hword, BitVec.toNat_ofNat, Nat.mod_eq_of_lt hfield]

theorem sourceEntryOf_of_words {image : List Word16} {n : Nat} {e : SourceEntry} (he : e.ok = true)
    (h1 : wordAt image (148 + 2 * n) = e.enable.toNat)
    (h2 : wordAt image (149 + 2 * n) = e.priority) : sourceEntryOf image n = e := by
  have hprio : e.priority ≤ 15 := of_decide_eq_true he
  rw [sourceEntryOf, h1, h2, toNat_ne_zero, Nat.min_eq_left hprio]

theorem outputConfigOf_of_words {image : List Word16} {i : Nat} {c : OutputConfig} (h1 : wordAt image i = c.enable.toNat)
    (h2 : wordAt image (i + 1) = c.framing.code) (h3 : wordAt image (i + 2) = c.mirror.toNat) :
    outputConfigOf image i = c := by
  have hframing : (if c.framing.code = 0 then Framing.master else .slave) = c.framing := by cases c.framing <;> rfl
  rw [outputConfigOf, h1, h2, h3, toNat_ne_zero, toNat_ne_zero, hframing]

section
variable {v : Settings} (hv : v.inRange = true)
include hv

theorem wordAt_port (p : Fin 4) {j : Nat} (hj : j < 37) :
    wordAt (imageOf v.words) (37 * p.val + j) = (portWords (v.portEnable.get p) (v.shaping.get p)).getD j 0 := by
  rw [wordAt_imageOf hv (by omega), v.fields_port p hj]

theorem wordAt_curve (p : Fin 4) {k : Nat} (hk : k < 33) :
    wordAt (imageOf v.words) (37 * p.val + 4 + k) = curvePoint (v.shaping.get p) k := by
  rw [Nat.add_assoc, wordAt_port hv p (by omega), portWords, getD_append_skip (by rfl), List.getD_eq_getElem _ _ (by simpa),
    List.getElem_map, List.getElem_range]

theorem wordAt_tail {k : Nat} (hk : k < 31) : wordAt (imageOf v.words) (148 + k) = v.tailFields.getD k 0 := by
  rw [wordAt_imageOf hv (by omega), v.fields_tail]

/-- The entry of hand source p stands from 150 + 2p on (R186). -/
theorem wordAt_hand (p : Fin 4) :
    wordAt (imageOf v.words) (150 + 2 * p.val) = (v.hand.get p).enable.toNat ∧
      wordAt (imageOf v.words) (151 + 2 * p.val) = (v.hand.get p).priority := by
  match p with
  | 0 => exact ⟨wordAt_tail hv (k := 2) (by decide), wordAt_tail hv (k := 3) (by decide)⟩
  | 1 => exact ⟨wordAt_tail hv (k := 4) (by decide), wordAt_tail hv (k := 5) (by decide)⟩
  | 2 => exact ⟨wordAt_tail hv (k := 6) (by decide), wordAt_tail hv (k := 7) (by decide)⟩
  | 3 => exact ⟨wordAt_tail hv (k := 8) (by decide), wordAt_tail hv (k := 9) (by decide)⟩

theorem shapingOf_imageOf (p : Fin 4) : shapingOf (imageOf v.words) p.val = v.shaping.get p := by
  obtain ⟨hcentre, hdead, hlen, hcurve⟩ := (Shaping.ok_iff _).1 ((v.inRange_iff.1 hv).1 p)
  have h1 : wordAt (imageOf v.words) (37 * p.val + 1) = (v.shaping.get p).centre := wordAt_port hv p (by decide)
  have h2 : wordAt (imageOf v.words) (37 * p.val + 2) = (v.shaping.get p).deadband := wordAt_port hv p (by decide)
  have h3 : wordAt (imageOf v.words) (37 * p.val + 3) = (v.shaping.get p).reverse.toNat := wordAt_port hv p (by decide)
  have hpoints : ((List.range 33).map fun k => min (wordAt (imageOf v.words) (37 * p.val + 4 + k)) Config.speedMax) =
      (v.shaping.get p).curve := by
    refine List.ext_getElem (by simp [hlen]) fun k hk hk' => ?_
    have hk33 : k < 33 := by simpa using hk
    have hpoint : curvePoint (v.shaping.get p) k = (v.shaping.get p).curve[k] := List.getD_eq_getElem _ _ hk'
    rw [List.getElem_map, List.getElem_range, wordAt_curve hv p hk33, hpoint]
    exact Nat.min_eq_left (hcurve _ (List.getElem_mem _))
  rw [shapingOf, h1, h2, h3, hpoints, Nat.min_eq_left hcentre, Nat.min_eq_left hdead, toNat_ne_zero]

/-- Settings in range read back as written (R163, R164). -/
theorem settingsOf_imageOf : settingsOf (imageOf v.words) = v := by
  obtain ⟨-, hconsole, hhand, hauto, hthr, hhold, ha1, ha2, hd1, hd2, hpace, hmax, hconst, hr1, hr2, heye, habove,
    hbelow⟩ := v.inRange_iff.1 hv
  have henable (p : Fin 4) : wordAt (imageOf v.words) (37 * p.val) = (v.portEnable.get p).toNat :=
    wordAt_port hv p (j := 0) (by decide)
  have hports : (⟨wordAt (imageOf v.words) 0 ≠ 0, wordAt (imageOf v.words) 37 ≠ 0, wordAt (imageOf v.words) 74 ≠ 0,
      wordAt (imageOf v.words) 111 ≠ 0⟩ : Four Bool) = v.portEnable := by
    rw [show wordAt (imageOf v.words) 0 = v.portEnable.p0.toNat from henable 0,
      show wordAt (imageOf v.words) 37 = v.portEnable.p1.toNat from henable 1,
      show wordAt (imageOf v.words) 74 = v.portEnable.p2.toNat from henable 2,
      show wordAt (imageOf v.words) 111 = v.portEnable.p3.toNat from henable 3]
    simp only [toNat_ne_zero]
  have hshaping : (⟨shapingOf (imageOf v.words) 0, shapingOf (imageOf v.words) 1, shapingOf (imageOf v.words) 2,
      shapingOf (imageOf v.words) 3⟩ : Four Shaping) = v.shaping :=
    Four.ext_get fun p => match p with
      | 0 => shapingOf_imageOf hv 0
      | 1 => shapingOf_imageOf hv 1
      | 2 => shapingOf_imageOf hv 2
      | 3 => shapingOf_imageOf hv 3
  have hhands (p : Fin 4) : sourceEntryOf (imageOf v.words) (p.val + 1) = v.hand.get p := by
    obtain ⟨h1, h2⟩ := wordAt_hand hv p
    refine sourceEntryOf_of_words (hhand p) ?_ ?_
    · rw [show 148 + 2 * (p.val + 1) = 150 + 2 * p.val by omega, h1]
    · rw [show 149 + 2 * (p.val + 1) = 151 + 2 * p.val by omega, h2]
  have hhand4 : (⟨sourceEntryOf (imageOf v.words) 1, sourceEntryOf (imageOf v.words) 2, sourceEntryOf (imageOf v.words) 3,
      sourceEntryOf (imageOf v.words) 4⟩ : Four SourceEntry) = v.hand :=
    Four.ext_get fun p => match p with
      | 0 => hhands 0
      | 1 => hhands 1
      | 2 => hhands 2
      | 3 => hhands 3
  have htail {k x : Nat} (hk : k < 31) (hx : v.tailFields.getD k 0 = x) : wordAt (imageOf v.words) (148 + k) = x :=
    (wordAt_tail hv hk).trans hx
  have hsources : sourceEntryOf (imageOf v.words) 0 = v.console ∧ sourceEntryOf (imageOf v.words) 5 = v.auto :=
    ⟨sourceEntryOf_of_words hconsole (htail (k := 0) (by decide) rfl) (htail (k := 1) (by decide) rfl),
      sourceEntryOf_of_words hauto (htail (k := 10) (by decide) rfl) (htail (k := 11) (by decide) rfl)⟩
  have hout : outputConfigOf (imageOf v.words) 171 = v.outA ∧ outputConfigOf (imageOf v.words) 174 = v.outB :=
    ⟨outputConfigOf_of_words (htail (k := 23) (by decide) rfl) (htail (k := 24) (by decide) rfl)
        (htail (k := 25) (by decide) rfl),
      outputConfigOf_of_words (htail (k := 26) (by decide) rfl) (htail (k := 27) (by decide) rfl)
        (htail (k := 28) (by decide) rfl)⟩
  have h160 : wordAt (imageOf v.words) 160 = v.threshold := htail (k := 12) (by decide) rfl
  have h161 : wordAt (imageOf v.words) 161 = v.holdOverValue := htail (k := 13) (by decide) rfl
  have h162 : wordAt (imageOf v.words) 162 = v.accel := htail (k := 14) (by decide) rfl
  have h163 : wordAt (imageOf v.words) 163 = v.decel := htail (k := 15) (by decide) rfl
  have h164 : wordAt (imageOf v.words) 164 = v.paceMin := htail (k := 16) (by decide) rfl
  have h165 : wordAt (imageOf v.words) 165 = v.paceMax := htail (k := 17) (by decide) rfl
  have h166 : wordAt (imageOf v.words) 166 = v.constant := htail (k := 18) (by decide) rfl
  have h167 : wordAt (imageOf v.words) 167 = v.rows := htail (k := 19) (by decide) rfl
  have h168 : wordAt (imageOf v.words) 168 = v.eyeRow := htail (k := 20) (by decide) rfl
  have h169 : wordAt (imageOf v.words) 169 = v.guardAbove := htail (k := 21) (by decide) rfl
  have h170 : wordAt (imageOf v.words) 170 = v.guardBelow := htail (k := 22) (by decide) rfl
  have h177 : wordAt (imageOf v.words) 177 = v.rate.code := htail (k := 29) (by decide) rfl
  have h178 : wordAt (imageOf v.words) 178 = v.refSelect.toNat := htail (k := 30) (by decide) rfl
  have hclampA : clampTo 1 4096 v.accel = v.accel := by simp only [clampTo]; omega
  have hclampD : clampTo 1 4096 v.decel = v.decel := by simp only [clampTo]; omega
  have hclampR : clampTo 1 24 v.rows = v.rows := by simp only [clampTo]; omega
  have hmin : min v.paceMin Config.speedMax = v.paceMin := Nat.min_eq_left (hpace.trans hmax)
  have hmax' : max v.paceMin (min v.paceMax Config.speedMax) = v.paceMax := by
    rw [show min v.paceMax Config.speedMax = v.paceMax from Nat.min_eq_left hmax, Nat.max_eq_right hpace]
  have hconst' : min v.constant Config.speedMax = v.constant := Nat.min_eq_left hconst
  have heye' : min v.eyeRow (v.rows - 1) = v.eyeRow := Nat.min_eq_left (by omega)
  simp only [settingsOf, hports, hshaping, hsources.1, hsources.2, hhand4, hout.1, hout.2, h160, h161, h162, h163, h164, h165,
    h166, h167, h168, h169, h170, h177, h178, hclampA, hclampD, hclampR, hmin, hmax', hconst', heye', Nat.min_eq_left hthr,
    Nat.min_eq_left hhold, Nat.min_eq_left habove, Nat.min_eq_left hbelow, rateOfCode?_code, Option.getD_some,
    toNat_ne_zero]

end

/-- Settles O47. -/
theorem settingsImageRoundTrip : Obligations.SettingsImageRoundTrip := by
  refine ⟨fun v hv => ?_, settingsOf_inRange, fun mem i hi => ?_⟩
  · have hlen : v.words.length = 179 := by rw [Settings.words, List.length_map, v.fields_length]
    refine ⟨imageGood_imageOf hlen, settingsOf_imageOf hv, hlen, fun w hw => ?_⟩
    obtain rfl : w = wordAt (imageOf v.words) := funext hw
    have htail {k x : Nat} (hk : k < 31) (hx : v.tailFields.getD k 0 = x) : wordAt (imageOf v.words) (148 + k) = x :=
      (wordAt_tail hv hk).trans hx
    have hframing (f : Framing) : f.code = if f = .master then 0 else 1 := by cases f <;> rfl
    refine ⟨fun p => ⟨wordAt_port hv p (j := 0) (by decide), wordAt_port hv p (j := 1) (by decide),
      wordAt_port hv p (j := 2) (by decide), wordAt_port hv p (j := 3) (by decide), fun k hk => wordAt_curve hv p hk,
      (wordAt_hand hv p).1, (wordAt_hand hv p).2⟩,
      htail (k := 0) (by decide) rfl, htail (k := 1) (by decide) rfl, htail (k := 10) (by decide) rfl,
      htail (k := 11) (by decide) rfl, htail (k := 12) (by decide) rfl, htail (k := 13) (by decide) rfl,
      htail (k := 14) (by decide) rfl, htail (k := 15) (by decide) rfl, htail (k := 16) (by decide) rfl,
      htail (k := 17) (by decide) rfl, htail (k := 18) (by decide) rfl, htail (k := 19) (by decide) rfl,
      htail (k := 20) (by decide) rfl, htail (k := 21) (by decide) rfl, htail (k := 22) (by decide) rfl,
      htail (k := 23) (by decide) rfl, htail (k := 24) (by decide) (hframing v.outA.framing),
      htail (k := 25) (by decide) rfl, htail (k := 26) (by decide) rfl,
      htail (k := 27) (by decide) (hframing v.outB.framing), htail (k := 28) (by decide) rfl,
      htail (k := 29) (by decide) ?_, htail (k := 30) (by decide) rfl⟩
    show v.rate.code = _
    cases v.rate <;> rfl
  · refine ⟨memWord mem i, ?_, ?_⟩
    · rw [readImage, List.getElem?_map, List.getElem?_range hi, Option.map_some]
    · have h1 := (memRead mem (2 * i)).isLt
      have h2 := (memRead mem (2 * i + 1)).isLt
      rw [memWord, BitVec.toNat_ofNat]
      omega

end Sys2Proof.Machine

/-! PROOFS. The modes (R49, R68, R87, R161, R162) and the diagnostic player (R86, R87, R168 to R170). -/

namespace Sys2Proof.Machine

/-! ### A change of mode (R162) -/

/-- A re-evaluation that finds the grant as it stands changes nothing (R55). -/
theorem State.regrant_regrant (s : State) : s.regrant.regrant = s.regrant := by
  have hsame : s.regrant.grant.holder = s.regrant.aua.holder := by rw [State.regrant_grant, State.regrant_aua]
  have hstands : ({ s.regrant.aua with
      holder := s.regrant.grant.holder
      inHoldOver := s.regrant.grant.inHoldOver
      count := s.regrant.grant.count } : Arbiter) = s.regrant.aua := by
    rw [State.regrant_grant, State.regrant_aua]
  rw [State.regrant, State.takeGrant, if_pos hsame, hstands]

/-- The state whose grant a change of mode re-evaluates: controller, ports, engine and auto mode as the change leaves
them, the rest as it stood (R162). -/
def State.modeTaken (s : State) (m : Mode) : State :=
  { s with
    msc := { s.msc with
      mode := m
      player := { s.msc.player with
        running := s.msc.player.running && m ≠ .diagnostic && s.msc.mode ≠ .diagnostic } }
    ports := if m = .diagnostic ∨ s.msc.mode = .diagnostic then s.ports.map HandPort.cleared else s.ports
    sce := { s.sce with velocity := if m = .setup then 0 else s.sce.velocity }
    tbp := { s.tbp with autoMode := if m = .setup then .off else s.tbp.autoMode } }

/-- What a staging shows depends on neither velocity nor auto mode (R149). -/
theorem State.trigger_modeRest (s : State) (m : Mode) : s.trigger.modeRest m = (s.modeRest m).trigger := by
  by_cases hm : m = .setup
  · rcases hb : s.wst.buffer with _ | f
    · simp only [State.modeRest, if_pos hm, State.trigger, hb]
      rfl
    · simp only [State.modeRest, if_pos hm, State.trigger, hb]
  · rw [State.modeRest, State.modeRest, if_neg hm, if_neg hm]

/-- Entry to SETUP takes the velocity and the auto mode, in whatever order with the grant, which SETUP leaves none (R49,
R56). -/
theorem State.regrant_modeRest {s : State} {m : Mode} (h : s.msc.mode = m) :
    s.regrant.modeRest m = (s.modeRest m).regrant := by
  by_cases hm : m = .setup
  · subst hm
    have hsus : s.msc.mode.suspended = true := by rw [h]; rfl
    have hsus' : (s.modeRest .setup).msc.mode.suspended = true := hsus
    rw [State.regrant, State.regrant, State.grant_suspended hsus, State.grant_suspended hsus']
    by_cases hsame : (Grant.plain none).holder = s.aua.holder
    · rw [State.takeGrant, State.takeGrant, if_pos hsame,
        if_pos (show (Grant.plain none).holder = (s.modeRest .setup).aua.holder from hsame)]
      rfl
    · rw [State.takeGrant, State.takeGrant, if_neg hsame,
        if_neg (show ¬ (Grant.plain none).holder = (s.modeRest .setup).aua.holder from hsame)]
      exact State.trigger_modeRest _ .setup
  · rw [State.modeRest, State.modeRest, if_neg hm, if_neg hm]

/-- The ports as a change of mode leaves them, with the grant as it stood or re-evaluated (R87, R162). -/
theorem State.modePorts_rest (s : State) (m : Mode) :
    State.modeRest (State.modePorts { s with msc := { s.msc with mode := m } } s.msc.mode m) m = s.modeTaken m ∨
      State.modeRest (State.modePorts { s with msc := { s.msc with mode := m } } s.msc.mode m) m =
        (s.modeTaken m).regrant ∧ (m = .diagnostic ∨ s.msc.mode = .diagnostic) := by
  have hrest (u : State) : u.modeRest m = { u with
      sce := { u.sce with velocity := if m = .setup then 0 else u.sce.velocity }
      tbp := { u.tbp with autoMode := if m = .setup then .off else u.tbp.autoMode } } := by
    by_cases hm : m = .setup
    · simp only [State.modeRest, if_pos hm]
    · simp only [State.modeRest, if_neg hm]
  by_cases hd : m = .diagnostic ∨ s.msc.mode = .diagnostic
  · have hrun : (s.msc.player.running && decide (m ≠ .diagnostic) && decide (s.msc.mode ≠ .diagnostic)) = false := by
      rcases hd with h | h <;> simp [h]
    have htaken : State.modeRest { s with
        msc := { s.msc with mode := m, player := { s.msc.player with running := false } }
        ports := s.ports.map HandPort.cleared } m = s.modeTaken m := by
      rw [hrest, State.modeTaken, if_pos hd, hrun]
    have hports : State.modePorts { s with msc := { s.msc with mode := m } } s.msc.mode m =
        State.clearLatches { s with msc := { s.msc with mode := m, player := { s.msc.player with running := false } } } :=
      if_pos hd.symm
    rw [hports]
    rcases State.clearLatches_cases { s with
        msc := { s.msc with mode := m, player := { s.msc.player with running := false } } } with ⟨h, -⟩ | ⟨h, -⟩
    · rw [h]
      exact .inl htaken
    · rw [h, State.regrant_modeRest rfl]
      exact .inr ⟨congrArg State.regrant htaken, hd⟩
  · have hports : State.modePorts { s with msc := { s.msc with mode := m } } s.msc.mode m =
        { s with msc := { s.msc with mode := m } } := if_neg fun h => hd h.symm
    have hrun : (s.msc.player.running && decide (m ≠ .diagnostic) && decide (s.msc.mode ≠ .diagnostic)) =
        s.msc.player.running := by
      simp only [not_or] at hd
      simp [hd.1, hd.2]
    rw [hports, hrest, State.modeTaken, if_neg hd, hrun]
    exact .inl rfl

/-- The two changes that leave the arbiter alone (R68). -/
def onAirChange (old new : Mode) : Prop :=
  (old = .rehearsal ∧ new = .onAir) ∨ (old = .onAir ∧ new = .rehearsal)

theorem State.changeMode_regrants {s : State} {m : Mode} (h : ¬ onAirChange s.msc.mode m) :
    s.changeMode m = (s.modeTaken m).regrant.passFollows.trigger := by
  have hgrant (u : State) : u.modeGrant s.msc.mode m = u.regrant := if_neg h
  rw [State.changeMode]
  dsimp only
  rw [hgrant]
  rcases s.modePorts_rest m with hkeeps | ⟨hchanges, -⟩
  · rw [hkeeps]
  · rw [hchanges, State.regrant_regrant]

theorem State.changeMode_airs {s : State} {m : Mode} (h : onAirChange s.msc.mode m) :
    s.changeMode m = (s.modeTaken m).passFollows.trigger := by
  have hgrant (u : State) : u.modeGrant s.msc.mode m = u := if_pos h
  have hnot : ¬ (m = .diagnostic ∨ s.msc.mode = .diagnostic) := by
    rcases h with ⟨h1, h2⟩ | ⟨h1, h2⟩ <;> simp [h1, h2]
  rw [State.changeMode]
  dsimp only
  rw [hgrant]
  rcases s.modePorts_rest m with hkeeps | ⟨-, hd⟩
  · rw [hkeeps]
  · exact absurd hd hnot

theorem State.changeMode_left {s : State} {m : Mode} (h : ¬ onAirChange s.msc.mode m) :
    SameBut [.ede, .wst] (s.modeTaken m).regrant (s.changeMode m) := by
  rw [State.changeMode_regrants h]
  simp [sameBut_iff, State.passFollows]

/-- A mode change restages with the window as the change leaves it (R148, R162). -/
theorem State.changeMode_restaged (s : State) (m : Mode) : Restaged s (s.changeMode m) := by
  by_cases h : onAirChange s.msc.mode m
  · rw [State.changeMode_airs h]
    exact (State.trigger_published (s := s) (u := (s.modeTaken m).passFollows) rfl).restaged
  · rw [State.changeMode_regrants h]
    obtain ⟨-, hkeeps, hchanges⟩ := (s.modeTaken m).regrant_published
    by_cases hh : (s.modeTaken m).regrant.aua.holder = (s.modeTaken m).aua.holder
    · exact (State.trigger_published (s := s) (u := (s.modeTaken m).regrant.passFollows) (hkeeps hh)).restaged
    · exact Restaged.trigger ((hchanges hh).restaged.of_same rfl rfl rfl)

theorem State.modeTaken_cli (s : State) (m : Mode) : (s.modeTaken m).regrant.cli =
    { s.cli with notices := s.tallyNotices (s.modeTaken m).regrant.aua.holder } := by
  rw [State.regrant_cli, State.regrant_aua]
  rfl

theorem State.changeMode_cli (s : State) (m : Mode) :
    (s.changeMode m).cli = { s.cli with notices := s.tallyNotices (s.changeMode m).aua.holder } := by
  by_cases h : onAirChange s.msc.mode m
  · have haua : (s.changeMode m).aua = s.aua := by
      rw [State.changeMode_airs h]
      simp [State.passFollows, State.modeTaken]
    rw [haua, State.tallyNotices, if_pos rfl, State.changeMode_airs h]
    simp [State.passFollows, State.modeTaken]
  · have hleft := State.changeMode_left h
    rw [show (s.changeMode m).cli = _ from hleft .cli (by decide), show (s.changeMode m).aua = _ from hleft .aua (by decide)]
    exact s.modeTaken_cli m

/-- What a mode change makes of every block but the arbiter, the stager and the console link (R162). -/
theorem State.changeMode_blocks (s : State) (m : Mode) :
    (s.changeMode m).msc = (s.modeTaken m).msc ∧ (s.changeMode m).ports = (s.modeTaken m).ports ∧
      (s.changeMode m).sce = (s.modeTaken m).sce ∧ (s.changeMode m).tbp = (s.modeTaken m).tbp ∧
      (s.changeMode m).ede = { s.ede with passesDue := s.ede.passesDue + 1 } := by
  have hede : (s.modeTaken m).ede = s.ede := rfl
  by_cases h : onAirChange s.msc.mode m
  · rw [State.changeMode_airs h]
    simp [State.passFollows, hede]
  · rw [State.changeMode_regrants h]
    simp [State.passFollows, hede]

/-- The arbiter on entry to SETUP (R56). -/
theorem State.changeMode_setup_aua (s : State) :
    (s.changeMode .setup).aua = { s.aua with holder := none, inHoldOver := false, count := 0 } := by
  have hleft := State.changeMode_left (s := s) (m := .setup) (by simp [onAirChange])
  rw [show (s.changeMode .setup).aua = _ from hleft .aua (by decide), State.regrant_aua,
    State.grant_suspended (s := s.modeTaken .setup) rfl]
  rfl

/-- The six changes (R161). -/
theorem modePermitted_iff (old m : Mode) : modePermitted old m = true ↔
    (old, m) ∈ [(Mode.setup, Mode.rehearsal), (.setup, .diagnostic), (.rehearsal, .setup), (.rehearsal, .onAir),
      (.onAir, .rehearsal), (.diagnostic, .setup)] := by
  cases old <;> cases m <;> decide

theorem modeOfCode?_code (m : Mode) : modeOfCode? m.code = some m := by cases m <;> rfl

theorem mode_wellFormed (m : Mode) : (Request.mode m.code).wellFormed = true := by cases m <;> rfl

theorem onAirChange_iff {old m : Mode} (h : modePermitted old m = true) :
    onAirChange old m ↔ m = .onAir ∨ old = .onAir := by
  cases old <;> cases m <;> simp_all [modePermitted, onAirChange]

/-- The candidates are chosen from eligibility, activity and entries (R57). -/
theorem State.best_congr {s t : State} (he : t.eligible = s.eligible) (ha : t.active = s.active)
    (hn : t.aua.entry = s.aua.entry) : t.best = s.best := by
  funext floor
  unfold State.best State.better State.candidate
  rw [he, ha, hn]

section
variable {s t : State} {m : Mode} (h : ¬ onAirChange s.msc.mode m) (ht : SameBut [.cli] (s.changeMode m) t)
include h ht

theorem State.changeMode_since : SameBut [.ede, .wst, .cli] (s.modeTaken m).regrant t :=
  ((State.changeMode_left h).mono (by simp)).trans (ht.mono (by simp))

theorem State.changeMode_inputs : t.aua = (s.modeTaken m).regrant.aua ∧ t.msc = (s.modeTaken m).msc ∧
    t.ports = (s.modeTaken m).ports ∧ t.sce = (s.modeTaken m).sce ∧ t.tbp = (s.modeTaken m).tbp := by
  have hsince := State.changeMode_since h ht
  exact ⟨hsince .aua (by decide), (hsince .msc (by decide)).trans (by simp), (hsince .ports (by decide)).trans (by simp),
    (hsince .sce (by decide)).trans (by simp), (hsince .tbp (by decide)).trans (by simp)⟩

/-- A mode change re-evaluates the grant on the inputs it leaves (R55, R68). -/
theorem State.changeMode_grant : GrantOnly s t ∧ Reevaluated s t ∧ t.authorityOk = true := by
  obtain ⟨haua, hmsc, hports, hsce, htbp⟩ := State.changeMode_inputs h ht
  refine ⟨?_, State.regrant_reevaluated (u := s.modeTaken m) haua (by rw [hmsc]) hports (by rw [hsce]) (by rw [htbp]) rfl,
    dependsOn_authorityOk.keep (by decide) (State.changeMode_since h ht) (s.modeTaken m).regrant_authorityOk⟩
  rw [GrantOnly, haua]
  exact (s.modeTaken m).regrant_published.1

theorem State.changeMode_best : t.best = (s.modeTaken m).best := by
  obtain ⟨haua, hmsc, hports, hsce, htbp⟩ := State.changeMode_inputs h ht
  have hentry (src : Source) : t.aua.entry src = (s.modeTaken m).aua.entry src := by
    rw [haua, State.regrant_aua]
    cases src <;> rfl
  refine State.best_congr (funext fun src => ?_) (funext fun src => ?_) (funext hentry)
  · exact State.eligible_congr (by rw [hmsc]) hports (by rw [haua, State.regrant_aua]) (hentry src)
  · exact State.active_congr (by rw [hsce]) hports (by rw [htbp]) src

end

/-- Settles O50. -/
theorem modeChanges : Obligations.ModeChanges := by
  rintro tag old m permitted s hs hr hop rfl hne rfl
  have hload : s.msc.mode ≠ .loading := State.consoleReady_mode hr
  refine ⟨fun hin => ?_, fun hout => ?_⟩
  · have hperm := (modePermitted_iff _ _).2 hin
    have hdo : doMode .console m.code s = (s.changeMode m, .ok (u8 m.code)) := by
      simp only [doMode, modeOfCode?_code, hop, ne_eq, not_true_eq_false, if_false, hne, hperm, if_true]
    obtain ⟨hmsc, hports, hsce, htbp, hede⟩ := s.changeMode_blocks m
    have hframe := s.changeMode_sameBut m
    obtain ⟨t, ht, hcli, hlast⟩ : ∃ t, exec (.mode .console tag m.code) s = .next t ∧
        t.cli = linkAfter s.cli (s.tallyNotices (s.changeMode m).aua.holder) ⟨tag, Mnem.mode.bytes, .ok (u8 m.code)⟩ ∧
        SameBut [.cli] (s.changeMode m) t :=
      ⟨_, exec_console (c := .mode .console tag m.code) (r := .mode m.code) hs hr rfl (instantsPast_of_ne (by simp))
        (mode_wellFormed m) (congrArg answered hdo) (s.changeMode_cli m) (hframe .rli (by decide)), rfl,
        by simp [sameBut_iff]⟩
    have haua : t.aua = (s.changeMode m).aua := hlast .aua (by decide)
    have htsce : t.sce = (s.changeMode m).sce := hlast .sce (by decide)
    have htwst : t.wst = (s.changeMode m).wst := hlast .wst (by decide)
    have htports : t.ports = (s.modeTaken m).ports := (hlast .ports (by decide)).trans hports
    have hsnap : t.snapshot = (s.changeMode m).snapshot :=
      State.snapshot_congr htsce (hlast .scs (by decide)) (by rw [haua]) (by rw [htwst]) (by rw [htwst])
    refine ⟨t, ht, (hlast .msc (by decide)).trans hmsc, (hlast .ede (by decide)).trans hede,
      (s.changeMode_restaged m).of_same rfl htwst hsnap, ?_, htsce.trans hsce, (hlast .tbp (by decide)).trans htbp,
      fun n => ?_, ?_, fun hm => ?_, fun hold hnone => ?_, hframe.trans (hlast.mono (by simp))⟩
    · rw [hcli, haua]
    · rw [State.port, htports, State.modeTaken]
      by_cases hd : m = .diagnostic ∨ s.msc.mode = .diagnostic
      · rw [if_pos hd, if_pos hd, Four.get_map]
        rfl
      · rw [if_neg hd, if_neg hd]
        rfl
    · by_cases hair : m = .onAir ∨ s.msc.mode = .onAir
      · rw [if_pos hair, haua, State.changeMode_airs ((onAirChange_iff hperm).2 hair)]
        simp [State.passFollows, State.modeTaken]
      · rw [if_neg hair]
        exact State.changeMode_grant (fun h => hair ((onAirChange_iff hperm).1 h)) hlast
    · subst hm
      exact haua.trans s.changeMode_setup_aua
    · have hleft := State.changeMode_left (s := s) (m := m) (by simp [onAirChange, hold])
      have hsus : (s.modeTaken m).msc.mode.suspended = false := by
        rw [hold] at hperm
        cases m <;> simp_all [modePermitted, State.modeTaken, Mode.suspended]
      have hbest : t.best = (s.modeTaken m).best := State.changeMode_best (by simp [onAirChange, hold]) hlast
      rw [haua, show (s.changeMode m).aua = _ from hleft .aua (by decide), State.regrant_aua, hbest]
      rcases hl : s.aua.lock with _ | l
      · rw [State.grant_free hsus hl (s := s.modeTaken m) (fun x hx => by simp [State.modeTaken, hnone] at hx)]
        simp [Grant.plain, State.modeTaken]
      · rw [State.grant_locked (s := s.modeTaken m) hsus hl]
        simp [Grant.plain, State.modeTaken]
  · have hnot : modePermitted s.msc.mode m = false := by
      rw [← Bool.not_eq_true, modePermitted_iff]
      exact hout
    have hdo : doMode .console m.code s = refuse s .console .mode .badTransition m.code := by
      simp only [doMode, modeOfCode?_code, hop, ne_eq, not_true_eq_false, if_false, hne, hnot, Bool.false_eq_true]
    obtain ⟨t, ht, hede, hcli, hframe⟩ := exec_refused (c := .mode .console tag m.code) (link := .console)
      (r := .mode m.code) hs hr rfl (instantsPast_of_ne (by simp)) (by simp) (mode_wellFormed m) (congrArg answered hdo)
    exact ⟨t, ht, hcli, hede, hframe⟩

/-! ### The diagnostic player (R86, R87, R168 to R170) -/

/-- The state whose grant a stop of the player re-evaluates, where an input of a port's source changes (R87). -/
def State.playerStopped (s : State) : State :=
  { s with
    msc := { s.msc with player := { s.msc.player with running := false } }
    ports := s.ports.map HandPort.cleared }

/-- Two ways a stop of the player can go: no port's inputs change, or the grant is re-evaluated on those it leaves (R87). -/
theorem State.stopPlayer_cases (s : State) :
    (s.stopPlayer = s.playerStopped ∧ ∀ n, ((s.port n).cleared).inputs = (s.port n).inputs) ∨
    (s.stopPlayer = s.playerStopped.regrant ∧ ∃ n, ((s.port n).cleared).inputs ≠ (s.port n).inputs) :=
  State.clearLatches_cases { s with msc := { s.msc with player := { s.msc.player with running := false } } }

theorem State.stopPlayer_cli (s : State) :
    s.stopPlayer.cli = { s.cli with notices := s.tallyNotices s.stopPlayer.aua.holder } := by
  rcases s.stopPlayer_cases with ⟨h, -⟩ | ⟨h, -⟩
  · rw [h]
    exact congrArg (fun table => { s.cli with notices := table }) (if_pos rfl).symm
  · rw [h, State.regrant_cli, State.regrant_aua]
    rfl

theorem State.stopPlayer_sameBut (s : State) : SameBut [.msc, .ports, .aua, .wst, .cli] s s.stopPlayer := by
  simp [sameBut_iff]

/-- What a stop of the player makes of player, ports and arbiter (R87, R169). -/
theorem State.stopPlayer_left {s t : State} (ht : SameBut [.cli, .rli] s.stopPlayer t) :
    t.msc = { s.msc with player := { s.msc.player with running := false } } ∧
      (∀ n, t.port n = (s.port n).cleared) ∧ GrantOnly s t ∧ Regranted s t ∧
      ((∀ n, (t.port n).inputs = (s.port n).inputs) → t.aua = s.aua) ∧
      ((∃ n, (t.port n).inputs ≠ (s.port n).inputs) → Reevaluated s t) := by
  have haua : t.aua = s.stopPlayer.aua := ht .aua (by decide)
  have hwst : t.wst = s.stopPlayer.wst := ht .wst (by decide)
  have hports : t.ports = s.ports.map HandPort.cleared := by
    rw [show t.ports = s.stopPlayer.ports from ht .ports (by decide)]
    rcases s.stopPlayer_cases with ⟨h, -⟩ | ⟨h, -⟩ <;> simp [h, State.playerStopped]
  have hmsc : t.msc = { s.msc with player := { s.msc.player with running := false } } := by
    rw [show t.msc = s.stopPlayer.msc from ht .msc (by decide)]
    rcases s.stopPlayer_cases with ⟨h, -⟩ | ⟨h, -⟩ <;> simp [h, State.playerStopped]
  have hport (n : Fin 4) : t.port n = (s.port n).cleared := by rw [State.port, hports, Four.get_map, State.port]
  have hauth (h : s.authorityOk = true) : t.authorityOk = true :=
    dependsOn_authorityOk.keep (by decide) ht (State.stopPlayer_authority h)
  simp only [hport]
  rcases s.stopPlayer_cases with ⟨h, hsame⟩ | ⟨h, n, hn⟩
  · have haua' : t.aua = s.aua := by rw [haua, h]; rfl
    refine ⟨hmsc, fun _ => trivial, by rw [GrantOnly, haua'], ⟨hauth, fun _ => by rw [hwst, h]; rfl, fun hh => ?_⟩,
      fun _ => haua',
      fun ⟨n, hn⟩ => absurd (hsame n) hn⟩
    exact absurd (congrArg Arbiter.holder haua') hh
  · rw [h] at ht
    refine ⟨hmsc, fun _ => trivial, ?_, (State.regrant_regranted (s := s) (u := s.playerStopped) rfl rfl ht).1,
      fun hsame => absurd (hsame n) hn,
      fun _ => ?_⟩
    · rw [GrantOnly, haua, h]
      exact s.playerStopped.regrant_published.1
    · have hsce : t.sce = s.playerStopped.sce := (ht .sce (by decide)).trans (by simp)
      have htbp : t.tbp = s.playerStopped.tbp := (ht .tbp (by decide)).trans (by simp)
      exact State.regrant_reevaluated (u := s.playerStopped) (ht .aua (by decide)) (by rw [hmsc]; rfl) hports
        (by rw [hsce]) (by rw [htbp]) rfl

/-- Entries in range of their ports are taken, each within its bounds (R168). -/
theorem takenEntries_eq {args : List PlayerArg} {es : List PlayerEntry}
    (h : List.Forall₂ (fun a e => e.port.val = a.port ∧ e.deflection = min a.deflection 4095 ∧ e.buttons = a.buttons ∧
      e.duration = max 1 (min a.duration 255)) args es) : takenEntries args = some es := by
  induction h with
  | nil => rfl
  | @cons a e rest es hae hrest ih =>
    obtain ⟨hport, hdefl, hbuttons, hduration⟩ := hae
    have hn : portOf? a.port = some e.port := by rw [← hport, portOf?_val]
    have he : takenEntry e.port a = e := by
      obtain ⟨port, deflection, buttons, duration⟩ := e
      simp only at hdefl hbuttons hduration
      rw [takenEntry, hdefl, hbuttons, hduration]
      rfl
    simp only [takenEntries, hn, ih, he]

/-- The start of a stopped player (R169). -/
theorem doDgrn_start {s : State} (hmode : s.msc.mode = .diagnostic) (hlen : s.msc.player.length ≠ 0)
    (hstopped : s.msc.player.running = false) (loop : Bool) :
    doDgrn .console 0 (some loop) s = ({ s with
      msc := { s.msc with player := s.msc.player.started loop }
      ports := releasedRecords s.ports }, .ok (playerData (s.msc.player.started loop))) := by
  have hhalt : s.haltPlayer = s := if_neg (by simp [hstopped])
  have hstart : s.startPlayer loop = { s with
      msc := { s.msc with player := s.msc.player.started loop }
      ports := releasedRecords s.ports } := by
    simp only [State.startPlayer, hhalt]
    rfl
  simp only [doDgrn, if_neg (not_not.2 hmode), State.runPlayer, if_neg hlen, hstart]

/-- The stop of a running player (R169). -/
theorem doDgrn_stop {s : State} (hmode : s.msc.mode = .diagnostic) (hrunning : s.msc.player.running = true) :
    doDgrn .console 1 none s = (s.stopPlayer, .ok (playerData s.stopPlayer.msc.player)) := by
  have hhalt : s.haltPlayer = s.stopPlayer := if_pos hrunning
  simp only [doDgrn, if_neg (not_not.2 hmode), State.runPlayer, hhalt]

/-- Settles O51. -/
theorem playerCommands : Obligations.PlayerCommands := by
  refine ⟨fun tag first length args es loop s hs hr => ⟨fun hmode hfirst hone hmax hrun hlen hall hes => ?_,
    fun hmode hlen hstopped => ?_, fun hmode hrunning => ?_⟩,
    fun c e p kind next due s hs he hp hkind hdue hnext => ⟨fun q hrunning hcursor hq => ?_, fun hrunning hcursor => ?_,
      fun hstopped => ?_⟩⟩
  · have hok : loadOk first args.length = true := by simp [loadOk]; omega
    have hdo : doDgld first args length s = (s.setPlayer { s.msc.player with
        table := writeEntries s.msc.player.table first es, length := min length 256 },
        .ok (u8 first ++ u8 es.length ++ u16 (min length 256))) := by
      simp only [doDgld, hok, Bool.not_true, Bool.false_eq_true, if_false, takenEntries_eq hes, if_neg (not_not.2 hmode)]
    have hwf : (Request.dgld first args length).wellFormed = true := by
      simp only [Request.wellFormed, Bool.and_eq_true, fits8_iff, decide_eq_true_eq, fits16_iff]
      exact ⟨⟨⟨hfirst, by omega⟩, hall⟩, hlen⟩
    exact ⟨_, exec_console_plain (c := .dgld .console tag first args length) (r := .dgld first args length) hs hr rfl
      (instantsPast_of_ne (by simp)) hwf (congrArg answered hdo) rfl rfl, rfl, rfl, by simp [sameBut_iff, State.setPlayer]⟩
  · exact ⟨_, exec_console_plain (c := .dgrn .console tag 0 (some loop)) (r := .dgrn 0 (some loop)) hs hr rfl
      (instantsPast_of_ne (by simp)) rfl (congrArg answered (doDgrn_start hmode hlen hstopped loop)) rfl rfl, rfl, rfl, rfl,
      by simp [sameBut_iff]⟩
  · obtain ⟨t, ht, hcli, hlast⟩ : ∃ t, exec (.dgrn .console tag 1 none) s = .next t ∧
        t.cli = linkAfter s.cli (s.tallyNotices s.stopPlayer.aua.holder)
          ⟨tag, Mnem.dgrn.bytes, .ok (playerData s.stopPlayer.msc.player)⟩ ∧ SameBut [.cli] s.stopPlayer t :=
      ⟨_, exec_console (c := .dgrn .console tag 1 none) (r := .dgrn 1 none) hs hr rfl (instantsPast_of_ne (by simp)) rfl
        (congrArg answered (doDgrn_stop hmode hrunning)) s.stopPlayer_cli (by simp), rfl, by simp [sameBut_iff]⟩
    obtain ⟨hmsc, hport, honly, hregranted, hkeeps, hchanges⟩ := State.stopPlayer_left (hlast.mono (by simp))
    refine ⟨t, ht, hmsc, hport, honly, hregranted, hkeeps, hchanges, ?_,
      s.stopPlayer_sameBut.trans (hlast.mono (by simp))⟩
    rw [hcli, show t.aua = _ from hlast .aua (by decide), show t.msc = _ from hlast .msc (by decide)]
  · have hq' : (s.port e.port).sample (s.dsh.get e.port) e.deflection e.buttons = q := by
      rw [hq, hkind, hp]
      rfl
    have hnextState : exec .playerTick s =
        finish ((s.playerTickTaken.takePort e.port q).setPlayer (s.msc.player.advance c)) := by
      have htick : s.playerTickTaken.playerTick = (s.playerTickTaken.present e).setPlayer (s.msc.player.advance c) := by
        have hcur : s.playerTickTaken.msc.player.cursor = some c := hcursor
        simp only [State.playerTick, hcur]
        rw [show s.playerTickTaken.msc.player.entryAt c = e from he.symm]
        rfl
      rw [show exec .playerTick s = finish s.playerTickTaken.playerTick from if_pos hrunning, htick, State.present, ← hq']
      rfl
    obtain ⟨htook, hcli⟩ := s.playerTickTaken.takePort_took e.port q
    have hframe : SameBut [.msc, .ports, .aua, .due, .wst, .cli] s
        ((s.playerTickTaken.takePort e.port q).setPlayer (s.msc.player.advance c)) := by
      simp [sameBut_iff, State.setPlayer, State.playerTickTaken]
    have hmsc : (s.playerTickTaken.takePort e.port q).msc = s.msc := by simp [State.playerTickTaken]
    have hdue' : (s.playerTickTaken.takePort e.port q).due = due := by simp [State.playerTickTaken, hdue]
    refine ⟨_, hnextState, htook.of_same rfl rfl rfl rfl rfl rfl rfl, congrArg LinkIface.pump hcli, hdue', fun hleft => ?_,
      fun hlast => ?_, hframe.settled_console hs (by simp)⟩
    · rw [State.settle_msc, State.setPlayer, hmsc, Player.advance, if_neg (by omega)]
    · rw [State.settle_msc, State.setPlayer, hmsc, Player.advance, if_pos (by omega)]
      have hcursor' : s.msc.player.nextCursor c = next := hnext.symm
      rw [hcursor']
      cases next <;> rfl
  · have hnextState : exec .playerTick s = finish s.playerTickTaken.stopPlayer := by
      have hcur : s.playerTickTaken.msc.player.cursor = none := hcursor
      rw [show exec .playerTick s = finish s.playerTickTaken.playerTick from if_pos hrunning]
      simp only [State.playerTick, hcur]
    obtain ⟨hmsc, hport, honly, hregranted, hkeeps, hchanges⟩ :=
      State.stopPlayer_left (State.settle_sameBut s.playerTickTaken.stopPlayer)
    have hframe : SameBut [.msc, .ports, .aua, .due, .wst, .cli] s s.playerTickTaken.stopPlayer := by
      simp [sameBut_iff, State.playerTickTaken]
    refine ⟨_, hnextState, hmsc, hport, honly, hregranted, hkeeps, hchanges,
      congrArg LinkIface.pump s.playerTickTaken.stopPlayer_cli, ?_, hframe.settled_console hs (by simp)⟩
    rw [State.settle_due, hdue]
    simp [State.playerTickTaken]
  · refine ⟨_, (show exec .playerTick s = finish s.playerTickTaken from if_neg (by simp [hstopped])).trans
      (finish_of_links hs rfl rfl), hdue.symm, by simp [sameBut_iff, State.playerTickTaken]⟩

end Sys2Proof.Machine

/-! PROOFS. The state after reset, a reservation, and the holder's buttons (O2, O11, O19). -/

namespace Sys2Proof.Machine

/-! ### The state after reset -/

theorem reset_settled : State.reset.settled = true :=
  (State.settled_iff _).2 ⟨LinkIface.reset_pump _, LinkIface.reset_pump _⟩

/-- Settles O2. -/
theorem resetIsSafe : Obligations.ResetIsSafe := by
  unfold Obligations.ResetIsSafe State.safe
  have hstore : State.reset.storeOk = true := (State.stored_iff _).1 (reset_stored 0 [] [])
  have hhand : State.reset.handOk = true := resetAt_handOk 0 [] []
  have hscroll : State.reset.scrollOk = true := (State.scrollOk_iff _).2 ⟨resetEngine_ok, by decide, by decide, by decide⟩
  have hcontrol : State.reset.controlOk = true := by decide
  have hqueues : State.reset.queuesOk = true := by decide
  simp only [reset_settled, reset_memoryOk, hqueues, hstore, hhand, hscroll, hcontrol, Bool.true_and, Bool.and_true]
  decide

/-! ### A reservation -/

/-- Settles O11. -/
theorem reservationGivesConsecutiveLids : Obligations.ReservationGivesConsecutiveLids := by
  unfold Obligations.ReservationGivesConsecutiveLids
  intro st n
  refine ⟨fun hfull => if_pos hfull, fun hfree hids => ?_, fun hfree hids => ?_⟩
  · exact (if_neg (Nat.not_lt.2 hfree)).trans (if_pos hids)
  · refine ⟨_, _, (if_neg (Nat.not_lt.2 hfree)).trans (if_neg (Nat.not_lt.2 hids)), by simp, fun k hk => ?_, rfl, rfl,
      ?_, ?_, ?_⟩
    · simp [hk]
    · simp [Store.inUse, List.countP_append, List.countP_map, Function.comp_def]
    · simp [Store.reserved, List.countP_append, List.countP_map, Function.comp_def]
    · simp only [Store.free, List.length_append, List.length_map, List.length_range] at hfree ⊢
      omega

/-! ### The holder's buttons -/

/-- Settles O19. -/
theorem buttonsActInOrder : Obligations.ButtonsActInOrder := by
  unfold Obligations.ButtonsActInOrder
  intro e b
  obtain ⟨hanchor, hfraction, -⟩ := e.press_position b
  refine ⟨fun ht hs => ?_, fun ht hs => ?_, fun ht hg hs => ?_, fun ht hg => ?_, ?_, hanchor, hfraction⟩
  · simp only [ScrollEngine.press, ht, if_true, ScrollEngine.toggleFreeze_eq, if_neg hs, ScrollEngine.release_eq]
    split <;> exact ⟨rfl, rfl⟩
  · simp only [ScrollEngine.press, ht, if_true, ScrollEngine.toggleFreeze_eq, if_pos hs, ScrollEngine.release_eq]
    split <;> rfl
  · simp [ScrollEngine.press, ht, hg, ScrollEngine.release_eq, hs]
  · rcases hg with hg | hs
    · simp [ScrollEngine.press, ht, hg]
    · simp [ScrollEngine.press, ht, ScrollEngine.release_eq, hs]
  · simp only [ScrollEngine.press, buttonJump]
    rw [ScrollEngine.release_eq, ScrollEngine.toggleFreeze_eq]
    (repeat' split) <;> rfl

end Sys2Proof.Machine

/-! PROOFS. A load of the settings (R49, R68, R130, R144, R148, R162, R164, R165). -/

namespace Sys2Proof.Machine

/-! ### What the owners take (R164) -/

theorem HandPort.withEnable_enabled (p : HandPort) (on : Bool) : (p.withEnable on).enabled = on := by
  unfold HandPort.withEnable
  split
  · next h => exact h
  · cases on <;> rfl

theorem State.portsTaken_enabled (s : State) (v : Settings) (n : Fin 4) :
    ((s.portsTaken v).port n).enabled = v.portEnable.get n := by
  unfold State.portsTaken State.setPortEnable
  fin_cases n <;> simp [State.takePort_port, HandPort.withEnable_enabled, Four.get]

theorem State.overdueTick_selection (s : State) :
    s.overdueTick.tbp.rate = s.tbp.rate ∧ s.overdueTick.tbp.refSelect = s.tbp.refSelect := by
  unfold State.overdueTick; split <;> exact ⟨rfl, rfl⟩

theorem State.enterRef_selection (s : State) (r : RefState) :
    (s.enterRef r).tbp.rate = s.tbp.rate ∧ (s.enterRef r).tbp.refSelect = s.tbp.refSelect := by
  unfold State.enterRef; dsimp only; split <;> exact ⟨rfl, rfl⟩

theorem State.setRate_selection (s : State) (r : Rate) :
    (s.setRate r).tbp.rate = r ∧ (s.setRate r).tbp.refSelect = s.tbp.refSelect := by
  unfold State.setRate
  split
  · next h => exact ⟨h, rfl⟩
  · exact State.overdueTick_selection _

theorem State.setRefSelect_selection (s : State) (on : Bool) :
    (s.setRefSelect on).tbp.rate = s.tbp.rate ∧ (s.setRefSelect on).tbp.refSelect = on := by
  unfold State.setRefSelect
  dsimp only
  split
  · next h => exact ⟨rfl, h⟩
  · have henter (r : RefState) := State.enterRef_selection { s with tbp := { s.tbp with refSelect := on } } r
    split
    · exact henter .lost
    · obtain ⟨hrate, hsel⟩ := State.overdueTick_selection (State.enterRef { s with tbp := { s.tbp with refSelect := on } } .free)
      exact ⟨hrate.trans (henter .free).1, hsel.trans (henter .free).2⟩

/-- The owners after the arbiter (R164). -/
def State.tuned (s : State) (v : Settings) : State :=
  ((s.setSlew v.accel v.decel).setPace v.paceMin v.paceMax).setConstant v.constant

/-- Those up to the outputs (R164). -/
def State.configured (s : State) (v : Settings) : State :=
  { ((s.tuned v).setGeometry v.rows v.eyeRow).setGuards v.guardAbove v.guardBelow with
    loa := s.loa.configure v.outA
    lob := s.lob.configure v.outB }

theorem State.takeSettings_eq (s : State) (v : Settings) :
    s.takeSettings v = (((s.arbiterTaken v).configured v).setRate v.rate).setRefSelect v.refSelect := by
  unfold State.takeSettings State.configured State.tuned
  dsimp only
  rw [← State.portsTaken, ← State.shapersTaken, ← State.arbiterTaken]
  simp

theorem State.shapersTaken_frame (s : State) (v : Settings) : SameBut [.dsh] (s.portsTaken v) (s.shapersTaken v) := by
  unfold State.shapersTaken
  generalize s.portsTaken v = u
  simp [sameBut_iff]

theorem State.arbiterTaken_frame (s : State) (v : Settings) :
    SameBut [.ports, .dsh, .aua, .wst, .cli] s (s.arbiterTaken v) ∧ (s.arbiterTaken v).dsh = v.shaping := by
  simp [sameBut_iff, State.arbiterTaken, State.shapersTaken, State.portsTaken]

/-- The arbiter keeps its lock and its grant fields through its settings but for a re-evaluation (R55, R164). -/
theorem State.setArbiter_aua (s : State) (v : Settings) : (s.setArbiter v).aua =
    { s.aua with
      console := v.console
      hand := v.hand
      auto := v.auto
      threshold := v.threshold
      holdOverValue := v.holdOverValue
      holder := (s.setArbiter v).aua.holder
      inHoldOver := (s.setArbiter v).aua.inHoldOver
      count := (s.setArbiter v).aua.count } := by
  unfold State.setArbiter
  dsimp only
  split
  · rfl
  · simp

/-- The arbiter's settings are the image's, and the lock stands (R164). -/
theorem State.arbiterTaken_aua (s : State) (v : Settings) :
    (s.arbiterTaken v).aua.console = v.console ∧ (s.arbiterTaken v).aua.hand = v.hand ∧
      (s.arbiterTaken v).aua.auto = v.auto ∧ (s.arbiterTaken v).aua.threshold = v.threshold ∧
      (s.arbiterTaken v).aua.holdOverValue = v.holdOverValue ∧ (s.arbiterTaken v).aua.lock = s.aua.lock := by
  have hlock : (s.shapersTaken v).aua.lock = s.aua.lock := by
    have hkept := (s.portsTaken_reported v).1.1
    rw [show (s.shapersTaken v).aua = (s.portsTaken v).aua from s.shapersTaken_frame v .aua (by decide), hkept]
  rw [State.arbiterTaken, State.setArbiter_aua, hlock]
  exact ⟨rfl, rfl, rfl, rfl, rfl, rfl⟩

theorem State.takeSettings_blocks (s : State) (v : Settings) :
    (s.takeSettings v).ports = (s.portsTaken v).ports ∧ (s.takeSettings v).dsh = v.shaping ∧
      (s.takeSettings v).aua = (s.arbiterTaken v).aua ∧ (s.takeSettings v).loa = s.loa.configure v.outA ∧
      (s.takeSettings v).lob = s.lob.configure v.outB ∧
      (s.takeSettings v).ede = { s.ede with
        guardAbove := v.guardAbove
        guardBelow := v.guardBelow
        passesDue := s.ede.passesDue +
          if v.guardAbove = s.ede.guardAbove ∧ v.guardBelow = s.ede.guardBelow then 0 else 1 } := by
  obtain ⟨hframe, hdsh⟩ := s.arbiterTaken_frame v
  have hports : (s.arbiterTaken v).ports = (s.portsTaken v).ports := by
    unfold State.arbiterTaken State.setArbiter
    dsimp only
    split <;> simp [State.shapersTaken]
  have hloa : (s.arbiterTaken v).loa = s.loa := hframe .loa (by decide)
  have hlob : (s.arbiterTaken v).lob = s.lob := hframe .lob (by decide)
  have hede : (s.arbiterTaken v).ede = s.ede := hframe .ede (by decide)
  rw [State.takeSettings_eq]
  rw [← hports, ← hdsh, ← hloa, ← hlob, ← hede]
  generalize s.arbiterTaken v = u
  simp [State.configured, State.setGuards_eq, State.tuned]

theorem State.takeSettings_tbp (s : State) {v : Settings} (hv : v.inRange = true) :
    (s.takeSettings v).tbp.paceMin = v.paceMin ∧ (s.takeSettings v).tbp.paceMax = v.paceMax ∧
      (s.takeSettings v).tbp.constant = v.constant ∧ (s.takeSettings v).tbp.rate = v.rate ∧
      (s.takeSettings v).tbp.refSelect = v.refSelect ∧ (s.takeSettings v).tbp.autoMode = s.tbp.autoMode := by
  have hconstant : min v.constant Config.speedMax = v.constant := by
    obtain ⟨-, -, -, -, -, -, -, -, -, -, -, -, hc, -⟩ := v.inRange_iff.1 hv
    exact Nat.min_eq_left hc
  have htbp : (s.arbiterTaken v).tbp = s.tbp := (s.arbiterTaken_frame v).1 .tbp (by decide)
  have hconf : ((s.arbiterTaken v).configured v).tbp =
      { s.tbp with paceMin := v.paceMin, paceMax := v.paceMax, constant := min v.constant Config.speedMax } := by
    rw [← htbp]
    generalize s.arbiterTaken v = u
    simp [State.configured, State.tuned, Config.speedMax]
  rw [hconstant] at hconf
  rw [State.takeSettings_eq]
  generalize (s.arbiterTaken v).configured v = u at hconf
  obtain ⟨hrate, href⟩ := (u.setRate v.rate).setRefSelect_selection v.refSelect
  obtain ⟨kc, kl, kh, -⟩ := (u.setRate_numbers v.rate).trans ((u.setRate v.rate).setRefSelect_numbers v.refSelect)
  rw [hrate, href, kc, kl, kh, State.setRefSelect_autoMode, State.setRate_autoMode, hconf]
  exact ⟨rfl, rfl, rfl, (u.setRate_selection v.rate).1, rfl, rfl⟩

/-- Every field stands at the value the image gives it (R164). -/
theorem State.takeSettings_settings {s : State} {v : Settings} (hv : v.inRange = true)
    (hw : (s.takeSettings v).wst.rows = v.rows)
    (he : (s.takeSettings v).wst.eyeRow = v.eyeRow) : (s.takeSettings v).settings = v := by
  obtain ⟨hports, hdsh, haua, hloa, hlob, hede⟩ := s.takeSettings_blocks v
  obtain ⟨hconsole, hhand, hauto, hthreshold, hvalue, -⟩ := s.arbiterTaken_aua v
  obtain ⟨hlo, hhi, hconstant, hrate, href, -⟩ := s.takeSettings_tbp hv
  have henable : (s.portsTaken v).ports.map (·.enabled) = v.portEnable :=
    Four.ext_get fun n => (Four.get_map ..).trans (s.portsTaken_enabled v n)
  rw [State.settings, hports, hdsh, haua, hloa, hlob, hede, hlo, hhi, hconstant, hrate, href, hw, he, henable, hconsole, hhand,
    hauto, hthreshold, hvalue, State.takeSettings_sce]
  rfl

/-! ### Arbiter and stager at a load (R56, R148) -/

/-- In SETUP and LOADING an arbiter with no holder stays without one, and the stager as it stood (R56). -/
def Ungranted (s t : State) : Prop :=
  t.msc.mode = s.msc.mode ∧ (s.msc.mode.suspended = true → s.aua.holder = none → t.aua.holder = none ∧ t.wst = s.wst)

theorem Ungranted.refl (s : State) : Ungranted s s := ⟨rfl, fun _ h => ⟨h, rfl⟩⟩

theorem Ungranted.trans {s t u : State} (h : Ungranted s t) (k : Ungranted t u) : Ungranted s u := by
  obtain ⟨hm, hkeep⟩ := h
  obtain ⟨km, kkeep⟩ := k
  refine ⟨km.trans hm, fun hsus hnone => ?_⟩
  obtain ⟨hholder, hwst⟩ := hkeep hsus hnone
  obtain ⟨kholder, kwst⟩ := kkeep (hm ▸ hsus) hholder
  exact ⟨kholder, kwst.trans hwst⟩

theorem State.regrant_ungranted (s : State) : Ungranted s s.regrant := by
  refine ⟨by simp, fun hsus hnone => ?_⟩
  have hgrant : s.grant.holder = none := by rw [State.grant_suspended hsus]; rfl
  exact ⟨by rw [State.regrant_aua]; exact hgrant, State.regrant_keeps (hgrant.trans hnone.symm)⟩

/-- A re-evaluation from a state with the holder, the mode and the stager of another. -/
theorem Ungranted.regrant {s u : State} (hm : u.msc.mode = s.msc.mode) (hh : u.aua.holder = s.aua.holder)
    (hw : u.wst = s.wst) : Ungranted s u ∧ Ungranted s u.regrant := by
  have hsame : Ungranted s u := ⟨hm, fun _ h => ⟨hh.trans h, hw⟩⟩
  exact ⟨hsame, hsame.trans u.regrant_ungranted⟩

theorem State.takePort_ungranted (s : State) (n : Fin 4) (p : HandPort) : Ungranted s (s.takePort n p) := by
  have hset := Ungranted.regrant (s := s) (u := (s.portTold n p).setPort n p) (by simp) (by simp) (by simp)
  rw [State.takePort_eq]
  split
  exacts [hset.1, hset.2]

theorem State.setArbiter_ungranted (s : State) (v : Settings) : Ungranted s (s.setArbiter v) := by
  unfold State.setArbiter
  dsimp only
  split
  · exact (Ungranted.regrant rfl rfl rfl).1
  · exact (Ungranted.regrant rfl rfl rfl).2

theorem State.arbiterTaken_ungranted (s : State) (v : Settings) : Ungranted s (s.arbiterTaken v) := by
  have hports : Ungranted s (s.portsTaken v) := by
    unfold State.portsTaken State.setPortEnable
    exact (((s.takePort_ungranted _ _).trans (State.takePort_ungranted ..)).trans (State.takePort_ungranted ..)).trans
      (State.takePort_ungranted ..)
  have hshapers : Ungranted s (s.shapersTaken v) := hports.trans (Ungranted.regrant (by simp [State.shapersTaken])
    (by simp [State.shapersTaken]) (by simp [State.shapersTaken])).1
  exact hshapers.trans (State.setArbiter_ungranted _ v)

/-- The geometry is taken last of the stager's inputs: a change of it is one trigger, and no change leaves the stager (R144,
R148). -/
theorem State.takeSettings_staged {s : State} {v : Settings} {w : Stager}
    (hw : w = { (s.arbiterTaken v).wst with rows := v.rows, eyeRow := v.eyeRow }) :
    (w = (s.arbiterTaken v).wst → (s.takeSettings v).wst = w) ∧
      (w ≠ (s.arbiterTaken v).wst → Published { s with wst := w } (s.takeSettings v)) := by
  subst hw
  rw [State.takeSettings_eq]
  generalize s.arbiterTaken v = u
  have hsame : ({ u.wst with rows := v.rows, eyeRow := v.eyeRow } : Stager) = u.wst ↔
      v.rows = u.wst.rows ∧ v.eyeRow = u.wst.eyeRow := by
    refine ⟨fun h => ⟨congrArg Stager.rows h, congrArg Stager.eyeRow h⟩, fun ⟨hr, he⟩ => ?_⟩
    rw [hr, he]
  have hwst : (((u.configured v).setRate v.rate).setRefSelect v.refSelect).wst =
      ((u.tuned v).setGeometry v.rows v.eyeRow).wst := by
    simp [State.configured]
  refine ⟨fun h => ?_, fun h => ?_⟩
  · rw [hwst, State.setGeometry,
      if_pos (show v.rows = (u.tuned v).wst.rows ∧ v.eyeRow = (u.tuned v).wst.eyeRow from hsame.1 h), h]
    rfl
  · have hset : (u.tuned v).setGeometry v.rows v.eyeRow = State.trigger
        { u.tuned v with wst := { u.wst with rows := v.rows, eyeRow := v.eyeRow } } :=
      if_neg (show ¬ (v.rows = (u.tuned v).wst.rows ∧ v.eyeRow = (u.tuned v).wst.eyeRow) from fun hg => h (hsame.2 hg))
    refine Published.of_same (State.trigger_published (s := { s with wst := { u.wst with rows := v.rows, eyeRow := v.eyeRow } })
      (u := { u.tuned v with wst := { u.wst with rows := v.rows, eyeRow := v.eyeRow } }) rfl) rfl (hwst.trans (by rw [hset])) ?_
    rw [← hset]
    exact State.snapshot_congr (by simp [State.configured]) (by simp [State.configured]) (by simp [State.configured])
      (by simp [State.configured]) (by simp [State.configured])

theorem Published.geometry {s t : State} (h : Published s t) :
    t.wst.rows = s.wst.rows ∧ t.wst.eyeRow = s.wst.eyeRow := by
  by_cases hb : s.wst.buffer = none
  · rw [h.1 hb]
    exact ⟨rfl, rfl⟩
  · rw [h.2 hb]
    exact ⟨rfl, rfl⟩

theorem State.takeSettings_geometry (s : State) (v : Settings) :
    (s.takeSettings v).wst.rows = v.rows ∧ (s.takeSettings v).wst.eyeRow = v.eyeRow := by
  obtain ⟨w, hw⟩ : ∃ w : Stager, w = { (s.arbiterTaken v).wst with rows := v.rows, eyeRow := v.eyeRow } := ⟨_, rfl⟩
  have hgeometry : w.rows = v.rows ∧ w.eyeRow = v.eyeRow := by
    rw [hw]
    exact ⟨rfl, rfl⟩
  obtain ⟨hsame, hchanged⟩ := State.takeSettings_staged hw
  by_cases h : w = (s.arbiterTaken v).wst
  · rwa [hsame h]
  · obtain ⟨hrows, heye⟩ := (hchanged h).geometry
    rw [hrows, heye]
    exact hgeometry

/-! ### LOADING becomes SETUP (R49, R165) -/

/-- What the end of LOADING makes of the blocks: of each but the arbiter's grant and the stager's staging (R49, R115, R165). -/
theorem State.leaveLoading_left (s : State) :
    s.leaveLoading.msc = { s.msc with mode := if s.msc.mode = .loading then .setup else s.msc.mode } ∧
      s.leaveLoading.ports = s.ports ∧
      s.leaveLoading.ede = { s.ede with passesDue := s.ede.passesDue + if s.msc.mode = .loading then 1 else 0 } ∧
      s.leaveLoading.sce = { s.sce with velocity := if s.msc.mode = .loading then 0 else s.sce.velocity } ∧
      s.leaveLoading.tbp = { s.tbp with autoMode := if s.msc.mode = .loading then .off else s.tbp.autoMode } := by
  by_cases hload : s.msc.mode = .loading
  · obtain ⟨hmsc, hports, hsce, htbp, hede⟩ := s.changeMode_blocks .setup
    have hleave : s.leaveLoading = s.changeMode .setup := if_pos hload
    rw [hleave, hmsc, hports, hsce, htbp, hede]
    simp [State.modeTaken, hload]
  · have hleave : s.leaveLoading = s := if_neg hload
    simp [hleave, hload]

theorem State.leaveLoading_settings (s : State) : s.leaveLoading.settings = s.settings := by
  obtain ⟨-, hports, hede, hsce, htbp⟩ := s.leaveLoading_left
  obtain ⟨⟨haua, -⟩, hrows, heye, -⟩ := s.leaveLoading_reported
  rw [State.settings, State.settings, hports, hede, hsce, htbp, hrows, heye, haua]
  simp

/-- The stager as LOADING ends: one trigger of the change, and another only where it takes a holder away (R148, R162). -/
theorem State.changeMode_setup_published {s : State} (h : s.aua.holder = none) :
    Published s (s.changeMode .setup) := by
  have hwst : (s.modeTaken .setup).regrant.wst = s.wst :=
    ((s.modeTaken .setup).regrant_ungranted.2 rfl h).2
  rw [State.changeMode_regrants (by simp [onAirChange])]
  exact State.trigger_published (by simpa [State.passFollows] using hwst)

/-! ### The end of a load (R164, R165) -/

/-- The state a load hands its values in: at the command's instant, with the memory it reads (log entry 10). -/
def State.loadFrom (s : State) (instant : Nat) (mem : List Host.Cell) : State := { s.reach instant with mem := mem }

/-- The values handed over and the outcome of the load (R164). -/
def State.loaded (s : State) (v : Settings) (good : Bool) : State :=
  if good then (s.takeSettings v).setStore .valid .idle
  else ((s.takeSettings v).setStore .invalid .idle).raise .settingsState (.settings .defaulted)

theorem State.takeImage_eq (s : State) (image : List Word16) : s.takeImage image =
    s.loaded (if imageGood image then settingsOf image else Settings.defaults) (imageGood image) := by
  by_cases hgood : imageGood image = true
  · rw [State.takeImage, State.loaded, if_pos hgood, if_pos hgood, if_pos hgood]
  · rw [State.takeImage, State.loaded, if_neg hgood, if_neg hgood, if_neg hgood]
    rfl

theorem exec_load {c : Instr} {instant : Nat} {given : Option (List Word16)} {mem : List Host.Cell} {good : Bool}
    {v : Settings} {s : State} (hload : s.msc.loading = true)
    (hc : (c = .loadCompletion instant given ∧ mem = memoryAtLoad s.mem given ∧ good = imageGood (readImage mem)) ∨
      (c = .settingsLoadTimeout instant ∧ mem = s.mem ∧ good = false))
    (hv : v = (if good then settingsOf (readImage mem) else Settings.defaults)) :
    exec c s = finish ((s.loadFrom instant mem).loaded v good).leaveLoading := by
  subst hv
  rcases hc with ⟨rfl, rfl, rfl⟩ | ⟨rfl, rfl, rfl⟩
  · rw [← State.takeImage_eq]
    exact if_pos hload
  · have hfrom : s.loadFrom instant s.mem = s.reach instant := rfl
    have hloaded : (s.reach instant).loaded Settings.defaults false = (s.reach instant).takeDefaults := by
      rw [State.loaded, if_neg Bool.false_ne_true, State.takeDefaults]
    rw [hfrom, if_neg Bool.false_ne_true, hloaded]
    exact if_pos hload

theorem State.loaded_frame (s : State) (v : Settings) (good : Bool) :
    SameBut [.msc, .cli] (s.takeSettings v) (s.loaded v good) ∧
      (s.loaded v good).msc = { s.msc with storeOp := .idle, image := if good then .valid else .invalid } := by
  cases good <;> simp [sameBut_iff, State.loaded, State.setStore]

theorem State.loaded_settings {s : State} {v : Settings} (hv : v.inRange = true) (good : Bool) :
    (s.loaded v good).settings = v := by
  obtain ⟨hrows, heye⟩ := s.takeSettings_geometry v
  refine Eq.trans ?_ (State.takeSettings_settings (s := s) hv hrows heye)
  cases good <;> rfl

/-- The notice of a load that took the defaults stands, whatever else the event raises (R164). -/
theorem State.loaded_reports (s : State) (v : Settings) :
    (s.loaded v false).leaveLoading.cli.pump.reports .settingsState (.settings .defaulted) := by
  have hraised : RaisedIn (s.loaded v false).cli.notices .settingsState (.settings .defaulted) :=
    raisedIn_raiseIn _ _ _
  generalize s.loaded v false = x at hraised
  refine LinkIface.reports_pump ?_
  by_cases hload : x.msc.mode = .loading
  · rw [State.leaveLoading, if_pos hload, State.changeMode_cli]
    show RaisedIn (x.tallyNotices _) _ _
    unfold State.tallyNotices
    split
    · exact hraised
    · exact hraised.raiseIn_other (by decide)
  · rwa [State.leaveLoading, if_neg hload]

/-- What a load makes of the blocks that the obligation names, LOADING left out (R164). -/
theorem State.loaded_left (s : State) {v : Settings} (hv : v.inRange = true) (good : Bool) :
    (s.loaded v good).mem = s.mem ∧ (s.loaded v good).scs = s.scs ∧ (s.loaded v good).aua.lock = s.aua.lock ∧
      (s.loaded v good).ede = { s.ede with
        guardAbove := v.guardAbove
        guardBelow := v.guardBelow
        passesDue := s.ede.passesDue +
          if v.guardAbove = s.ede.guardAbove ∧ v.guardBelow = s.ede.guardBelow then 0 else 1 } ∧
      (s.loaded v good).sce = { s.sce with accel := v.accel, decel := v.decel } ∧
      (s.loaded v good).tbp.autoMode = s.tbp.autoMode := by
  obtain ⟨hframe, -⟩ := s.loaded_frame v good
  obtain ⟨-, -, haua, -, -, hede⟩ := s.takeSettings_blocks v
  obtain ⟨-, -, -, -, -, hauto⟩ := s.takeSettings_tbp hv
  obtain ⟨-, -, -, -, -, hlock⟩ := s.arbiterTaken_aua v
  refine ⟨(hframe .mem (by decide)).trans (by simp), (hframe .scs (by decide)).trans (by simp), ?_,
    (hframe .ede (by decide)).trans hede, (hframe .sce (by decide)).trans (s.takeSettings_sce v), ?_⟩
  · rw [show (s.loaded v good).aua = _ from hframe .aua (by decide), haua, hlock]
  · rw [show (s.loaded v good).tbp = _ from hframe .tbp (by decide), hauto]

/-- The stager at a load in SETUP or LOADING with no holder: one trigger exactly where the geometry changed (R148). -/
theorem State.loaded_staged {s : State} {v : Settings} {w : Stager} (good : Bool)
    (hw : w = { s.wst with rows := v.rows, eyeRow := v.eyeRow }) (hsus : s.msc.mode.suspended = true)
    (hnone : s.aua.holder = none) :
    (s.loaded v good).aua.holder = none ∧ (w = s.wst → (s.loaded v good).wst = s.wst) ∧
      (w ≠ s.wst → Published { s with wst := w } (s.loaded v good)) := by
  obtain ⟨hframe, -⟩ := s.loaded_frame v good
  obtain ⟨hholder, hwst⟩ := (s.arbiterTaken_ungranted v).2 hsus hnone
  obtain ⟨-, -, haua, -, -, -⟩ := s.takeSettings_blocks v
  obtain ⟨hsame, hchanged⟩ := State.takeSettings_staged (s := s) (v := v) (w := w) (by rw [hwst, hw])
  rw [hwst] at hsame hchanged
  have hlast : (s.loaded v good).wst = (s.takeSettings v).wst := hframe .wst (by decide)
  have haua' : (s.loaded v good).aua = (s.takeSettings v).aua := hframe .aua (by decide)
  refine ⟨by rw [haua', haua, hholder], fun h => hlast.trans ((hsame h).trans h), fun h => ?_⟩
  exact (hchanged h).of_same rfl hlast (State.snapshot_congr (hframe .sce (by decide)) (hframe .scs (by decide))
    (by rw [haua']) (by rw [hlast]) (by rw [hlast]))

/-- The two triggers of a load that leaves LOADING: that of the geometry, where it changed, and that of the change of mode
(R148, R162). -/
theorem State.changeMode_setup_twice {s x : State} {w : Stager} (hsame : w = s.wst → x.wst = s.wst)
    (hchanged : w ≠ s.wst → Published { s with wst := w } x) (hnone : x.aua.holder = none) (hbuffer : w.buffer = s.wst.buffer) :
    Restaged { s with wst := w } (x.changeMode .setup) ∧
      (s.wst.buffer = none → (x.changeMode .setup).wst.restage = (s.wst.restage || decide (w ≠ s.wst))) := by
  have hset := State.changeMode_setup_published hnone
  by_cases hw : w = s.wst
  · have hfirst : Published { s with wst := w } (x.changeMode .setup) := hset.of_same (hw.trans (hsame hw).symm) rfl rfl
    refine ⟨hfirst.restaged, fun hb => ?_⟩
    rw [hfirst.1 (hbuffer.trans hb)]
    simp [hw]
  · have hfirst : Retriggered x.snapshot { s with wst := w } x := (hchanged hw).restaged
    have hsecond : (x.changeMode .setup).wst = { x.wst with restage := true } := hset.2 hfirst.buffer
    have hsnap : (x.changeMode .setup).snapshot = x.snapshot := by
      obtain ⟨-, -, hsce, -⟩ := x.changeMode_blocks .setup
      have hscs : (x.changeMode .setup).scs = x.scs := by simp
      simp only [State.snapshot, State.anchorOrdinal, hsce, hscs, hsecond, x.changeMode_setup_aua, hnone]
      rfl
    refine ⟨?_, fun _ => ?_⟩
    · rw [restaged_iff, hsnap]
      exact hfirst.again (.inr hsecond)
    · rw [hsecond]
      simp [hw]

/-- Settles O48. -/
theorem loadCompletionTakesImage : Obligations.LoadCompletionTakesImage := by
  unfold Obligations.LoadCompletionTakesImage
  intro c instant given mem good v s hloading hc hv
  have hrange : v.inRange = true := by
    rw [hv]
    split
    exacts [settingsOf_inRange _, defaults_inRange]
  obtain ⟨y, hy⟩ : ∃ y, y = s.loadFrom instant mem := ⟨_, rfl⟩
  have hys : SameBut [.tbp, .mem] s y := by simp [hy, State.loadFrom, sameBut_iff]
  have hymsc : y.msc = s.msc := hys .msc (by decide)
  have hywst : y.wst = s.wst := hys .wst (by decide)
  obtain ⟨-, hmsc⟩ := y.loaded_frame v good
  have hsettings := State.loaded_settings (s := y) hrange good
  obtain ⟨hmem, hscs, hlock, hede, hsce, hauto⟩ := y.loaded_left hrange good
  have hreports := y.loaded_reports v
  have hstaged := State.loaded_staged (s := y) (v := v) (w := { y.wst with rows := v.rows, eyeRow := v.eyeRow }) good rfl
  rw [exec_load hloading hc hv, ← hy]
  rw [show y.mem = mem by rw [hy]; rfl] at hmem
  rw [show y.scs = s.scs from hys .scs (by decide)] at hscs
  rw [show y.aua = s.aua from hys .aua (by decide)] at hlock hstaged
  rw [show y.ede = s.ede from hys .ede (by decide)] at hede
  rw [show y.sce = s.sce from hys .sce (by decide)] at hsce
  rw [show y.tbp.autoMode = s.tbp.autoMode by rw [hy]; rfl] at hauto
  rw [hymsc] at hmsc hstaged
  rw [hywst] at hstaged
  have hreported : good = false → (y.loaded v good).leaveLoading.cli.pump.reports .settingsState (.settings .defaulted) := by
    rintro rfl
    exact hreports
  generalize y.loaded v good = x at *
  have hmode : x.msc.mode = s.msc.mode := by rw [hmsc]
  obtain ⟨lmsc, -, lede, lsce, ltbp⟩ := x.leaveLoading_left
  have lsettings := x.leaveLoading_settings
  obtain ⟨⟨laua, -⟩, -⟩ := x.leaveLoading_reported
  rw [hmode] at lmsc lede lsce ltbp
  refine ⟨_, rfl, lsettings.trans hsettings, by simpa using hmem, by simpa using hscs, ?_, ?_, hreported, ?_, ?_, ?_,
    fun hm => ?_, ?_⟩
  · show x.leaveLoading.aua.lock = _
    rw [laua, hlock]
  · show x.leaveLoading.msc = _
    rw [lmsc, hmsc]
  · show x.leaveLoading.ede = _
    rw [lede, hede]
  · show x.leaveLoading.sce = _
    rw [lsce, hsce]
  · show x.leaveLoading.tbp.autoMode = _
    rw [ltbp, hauto]
  · have hleave : x.leaveLoading = x.changeMode .setup := if_pos (hmode.trans hm)
    have hbuffer : (x.changeMode .setup).wst.buffer ≠ none :=
      ((restaged_iff _ _).1 (x.changeMode_restaged .setup)).buffer
    show x.leaveLoading.aua.holder = none ∧ x.leaveLoading.aua.inHoldOver = false ∧ x.leaveLoading.aua.count = 0 ∧
      x.leaveLoading.wst.buffer.isSome = true
    rw [hleave, x.changeMode_setup_aua]
    exact ⟨rfl, rfl, rfl, Option.isSome_iff_ne_none.2 hbuffer⟩
  · rintro w rfl hnone
    refine ⟨fun hm => ?_, fun hm => ?_⟩
    · obtain ⟨hholder, hsame, hchanged⟩ := hstaged (by rw [hm]; rfl) hnone
      have hleave : x.leaveLoading = x.changeMode .setup := if_pos (hmode.trans hm)
      rw [hleave]
      exact State.changeMode_setup_twice hsame (fun h => (hchanged h).of_same rfl rfl rfl) hholder rfl
    · obtain ⟨hholder, hsame, hchanged⟩ := hstaged (by rw [hm]; rfl) hnone
      have hleave : x.leaveLoading = x := if_neg (by rw [hmode, hm]; decide)
      rw [hleave]
      exact ⟨hholder, hsame, fun h => (hchanged h).of_same rfl rfl rfl⟩

end Sys2Proof.Machine
